-- ==== Sys2Proof/Word.lean ====
section
/-! DEFINITION. The word types of the block: a register byte, an access word, a slave address. -/

namespace Sys2Proof

/-- One register, one bus byte (R20, R55): 8 bits. -/
abbrev Byte := BitVec 8

/-- One HOST access written as a word (R70): W in bit 10, REG in bits 9:8, VAL in bits 7:0. -/
abbrev AccessWord := BitVec 11

/-- A 7-bit slave address (R7, R51). -/
abbrev SlaveAddress := BitVec 7

end Sys2Proof
end

