-- ==== Sys2Proof/Syntax.lean ====
section
/-! DEFINITION. The names of the spec: registers, phases, commands, bus events, BUS choices, and Instr,
one constructor per row of spec/opcode_table.json. -/

namespace Sys2Proof

/-- The four registers (R20), in the order of their index 0 to 3. -/
inductive Reg where
  | baud | status | data | ctrl
  deriving DecidableEq, Repr, Inhabited

/-- The fourteen values of the phase state (R33). It stands with the syntax because it selects how a
CTRL write decodes (R81). -/
inductive Phase where
  | off | idle | started | repStarted
  | mtSlaAck | mtSlaNack | mtDataAck | mtDataNack
  | arbLost
  | mrSlaAck | mrSlaNack | mrDataAck | mrDataNack
  | busError
  deriving DecidableEq, Repr, Inhabited

/-- The acknowledge bit of a byte (R200). -/
inductive Ack where
  | ack | nack
  deriving DecidableEq, Repr, Inhabited

/-- What the bus trace records (R200). -/
inductive BusEvent where
  /-- start condition, the block becomes owner -/
  | start
  /-- repeated start, the block stays owner -/
  | repStart
  /-- the block sent `b`, the slave answered `a` -/
  | byte (b : Byte) (a : Ack)
  /-- the block received `b` and returned `a` -/
  | recv (b : Byte) (a : Ack)
  /-- stop condition, the block releases the bus -/
  | stop
  /-- the block lost arbitration and stopped driving -/
  | lost
  /-- a bus error ended the phase -/
  | busErr
  deriving DecidableEq, Repr, Inhabited

/-- Which member of an outcome set of R183 BUS chooses: `success` is a row's first member (for a
transmit the one with Ack), `nack` the Nack member of a transmit, `lost` and `busErr` the error members. -/
inductive Answer where
  | success | nack | lost | busErr
  deriving DecidableEq, Repr, Inhabited

/-- One choice of BUS while an ENGINE step is possible (R184): not yet, or now, with this answer and,
for a receive, this byte. -/
inductive BusMove where
  | wait
  | complete (a : Answer) (r : Byte)
  deriving DecidableEq, Repr, Inhabited

/-- What is wrong with a CTRL value, in the order of the checks of R75. -/
inductive CtrlDefect where
  | reservedBit | requestWithoutTrigger | triggerWhileDisabled | startAndStop
  deriving DecidableEq, Repr, Inhabited

/-- The nine commands a CTRL value can select (R76). -/
inductive Command where
  | enable | disable | start | repStart | stop
  | transmitAddr | transmitData | receiveAck | receiveNack
  deriving DecidableEq, Repr, Inhabited

/-- One HOST access. The first eight constructors are the access forms of R71. The other nine are the
command rows of the table: the CTRL write of R76 that selects the command, with its EA bit where the
table stores one. A read carries no VAL, which is ignored (R70). -/
inductive Instr where
  /-- RD_BAUD (R106) -/
  | rdBaud
  /-- RD_STATUS (R105) -/
  | rdStatus
  /-- RD_DATA (R104) -/
  | rdData
  /-- RD_CTRL (R103) -/
  | rdCtrl
  /-- WR_BAUD (R110) -/
  | wrBaud (v : Byte)
  /-- WR_STATUS (R109) -/
  | wrStatus (v : Byte)
  /-- WR_DATA (R108) -/
  | wrData (v : Byte)
  /-- WR_CTRL (R107) -/
  | wrCtrl (v : Byte)
  /-- ENABLE (R170) -/
  | enable (ea : Bool)
  /-- DISABLE (R171) -/
  | disable (ea : Bool)
  /-- START (R150) -/
  | start (ea : Bool)
  /-- REP_START (R151) -/
  | repStart (ea : Bool)
  /-- STOP (R152) -/
  | stop (ea : Bool)
  /-- TRANSMIT_ADDR (R160) -/
  | transmitAddr (ea : Bool)
  /-- TRANSMIT_DATA (R161) -/
  | transmitData (ea : Bool)
  /-- RECEIVE_ACK (R162) -/
  | receiveAck
  /-- RECEIVE_NACK (R163) -/
  | receiveNack
  deriving DecidableEq, Repr, Inhabited

end Sys2Proof
end

