-- ==== Sys2Proof/Config.lean ====
section
/-! DEFINITION. What an implementation fixes (the parameters of R8) and the free values, which have no
body: no proof can see what they are. -/

namespace Sys2Proof

/-- IDLE_CODE (R8, R34), at its default. UNVERIFIED by the source (D14); log entry 5. -/
def Config.idleCode : Byte := 0xF8

/-- ENV_BUS_ERROR (R8, R183), at its default: BUS may report a bus error (D13); log entry 5. -/
def Config.envBusError : Bool := true

/-- REG_ADDR (R8, R50) as an I/O address, at its default, the ATmega16 placement. No rule reads it;
log entry 5. -/
def Config.regIoAddr : Reg → Nat
  | .baud => 0x00
  | .status => 0x01
  | .data => 0x03
  | .ctrl => 0x36

/-- REG_ADDR (R50) as a data-space address: the I/O address and 0x20. -/
def Config.regDataAddr (r : Reg) : Nat := Config.regIoAddr r + 0x20

/-- UNIFORM_STOP_ON_ERROR (R8, R227), at its default, the source's behaviour. -/
def Config.uniformStopOnError : Bool := false

/-- POLL_BOUND (R8, R225), at its default: unbounded. -/
def Config.pollBound : Option Nat := none

/-- INIT_DIVISOR (R8, R229): OPEN in the spec, so no body (log entry 6). -/
opaque Config.initDivisor : Byte

/-- INIT_PRESCALER (R8, R229): OPEN in the spec, so no body (log entry 6). -/
opaque Config.initPrescaler : BitVec 2

/-- F_CPU (R8, R206): OPEN in the spec, so no body. No rule depends on it (log entry 6). -/
opaque Config.fCpu : Nat

/-- The draw() of R31 and R105: bits 7:3 of a STATUS read while the block is busy, applied to the state's
`epoch` (log entry 2). -/
opaque Config.freeStatusCode : Nat → BitVec 5

/-- The draw() of R104: a DATA read while a command is in flight, applied to the state's `epoch`
(log entry 2). -/
opaque Config.freeDataByte : Nat → Byte

/-- BUS's choice (R184, R183) where the state's script of BUS choices is at its end, applied to the
state's `tick` (log entry 3). -/
opaque Config.freeBusMove : Nat → BusMove

end Sys2Proof
end

