-- ==== Sys2Proof/WellFormed.lean ====
section
/-! DEFINITION. Which instructions are well formed. Every field is a bit vector or a Bool, so the one
thing that can be wrong is the value of a CTRL write: the checks of R75. They stand here in the form the
opcode table gives them, as the masks and values of its rows; Sys2Proof/Laws/Decode.lean proves that the
decoder's checks accept the same values. -/

namespace Sys2Proof

/-- The value is one of the five command shapes of the table's CTRL_WRITE rows, with EA (bit 6) free:
DISABLE 0x00, ENABLE 0x04, START 0xA4, STOP 0x94 and the continue form 0x84 (R75, R76, R77). -/
def ctrlValueWellFormed (v : Byte) : Bool :=
  [0x00, 0x04, 0xA4, 0x94, 0x84].contains (v &&& 0xBF)

/-- An instruction the spec gives a meaning in some state. An ill-formed one is a CTRL write that R75
refuses in every state. -/
def Instr.wellFormed : Instr → Bool
  | .rdBaud | .rdStatus | .rdData | .rdCtrl => true
  | .wrBaud _ | .wrStatus _ | .wrData _ => true
  | .wrCtrl v => ctrlValueWellFormed v
  | .enable _ | .disable _ | .start _ | .repStart _ | .stop _ => true
  | .transmitAddr _ | .transmitData _ | .receiveAck | .receiveNack => true

/-- `wellFormed` as a proposition. -/
abbrev Instr.WellFormed (i : Instr) : Prop := i.wellFormed = true

end Sys2Proof
end

