-- ==== Sys2Proof/Decode.lean ====
section
/-! DEFINITION. The decoder of access words (R70 to R76, R81), and after it the encoder. -/

namespace Sys2Proof

/-- CTRL bit 7, INT (R73). -/
def ctrlInt (v : Byte) : Bool := v.getLsbD 7
/-- CTRL bit 6, EA (R73). -/
def ctrlEa (v : Byte) : Bool := v.getLsbD 6
/-- CTRL bit 5, STA (R73). -/
def ctrlSta (v : Byte) : Bool := v.getLsbD 5
/-- CTRL bit 4, STO (R73). -/
def ctrlSto (v : Byte) : Bool := v.getLsbD 4
/-- CTRL bit 2, EN (R73). -/
def ctrlEn (v : Byte) : Bool := v.getLsbD 2

/-- The value checks of R75, in their order: the first that fails. -/
def ctrlDefect (v : Byte) : Option CtrlDefect :=
  if v &&& 0x0B ≠ 0 then some .reservedBit
  else if !ctrlInt v && (ctrlSta v || ctrlSto v) then some .requestWithoutTrigger
  else if ctrlInt v && !ctrlEn v then some .triggerWhileDisabled
  else if ctrlInt v && ctrlSta v && ctrlSto v then some .startAndStop
  else none

/-- What the continue form (INT = EN = 1, STA = STO = 0) means, by phase and EA (R76); none where the
table refuses it. -/
def continueCommand (ea : Bool) : Phase → Option Command
  | .started | .repStarted => some .transmitAddr
  | .mtSlaAck | .mtDataAck => some .transmitData
  | .mrSlaAck | .mrDataAck => some (if ea then .receiveAck else .receiveNack)
  | .off | .idle | .mtSlaNack | .mtDataNack | .arbLost | .mrSlaNack | .mrDataNack | .busError => none

/-- Command selection (R76) for a value that passes R75. -/
def selectCommand (v : Byte) (p : Phase) : Option Command :=
  if !ctrlInt v then some (if ctrlEn v then .enable else .disable)
  else if ctrlSta v then some (if p = .mtDataAck then .repStart else .start)
  else if ctrlSto v then some .stop
  else continueCommand (ctrlEa v) p

/-- The table row of a command, as an instruction. -/
def commandInstr (c : Command) (ea : Bool) : Instr :=
  match c with
  | .enable => .enable ea
  | .disable => .disable ea
  | .start => .start ea
  | .repStart => .repStart ea
  | .stop => .stop ea
  | .transmitAddr => .transmitAddr ea
  | .transmitData => .transmitData ea
  | .receiveAck => .receiveAck
  | .receiveNack => .receiveNack

/-- VAL, bits 7:0 of an access word (R70). -/
def accessVal (w : AccessWord) : Byte := w.extractLsb' 0 8

/-- The access forms (R72): W in bit 10, REG in bits 9:8. Total: every word is one of the eight. -/
def decodeAccess (w : AccessWord) : Instr :=
  match w.getLsbD 10, w.getLsbD 9, w.getLsbD 8 with
  | false, false, false => .rdBaud
  | false, false, true => .rdStatus
  | false, true, false => .rdData
  | false, true, true => .rdCtrl
  | true, false, false => .wrBaud (accessVal w)
  | true, false, true => .wrStatus (accessVal w)
  | true, true, false => .wrData (accessVal w)
  | true, true, true => .wrCtrl (accessVal w)

/-- A CTRL write read with the phase (R81): the command row it selects; where R75 refuses the value, or
R76 selects no command, the plain access form, whose meaning gives the refusal. -/
def decodeCtrlWrite (p : Phase) (v : Byte) : Instr :=
  match ctrlDefect v with
  | some _ => .wrCtrl v
  | none =>
    match selectCommand v p with
    | some c => commandInstr c (ctrlEa v)
    | none => .wrCtrl v

/-- The decoder: the access form, and for a CTRL write the command row, the phase being the decoder's
second input (R81). -/
def decode (p : Phase) (w : AccessWord) : Instr :=
  if w.extractLsb' 8 3 = 7 then decodeCtrlWrite p (accessVal w) else decodeAccess w

/-- What the decoder answers on a number: an instruction, or the one rejection there is, a number that
is wider than an access word (R70: every 11-bit word decodes). -/
inductive Decoded where
  | instr (i : Instr)
  | widerThanAccessWord
  deriving DecidableEq, Repr

/-- The decoder on any number, in phase `p`. -/
def decodeNat (p : Phase) (w : Nat) : Decoded :=
  if w < 2 ^ 11 then .instr (decode p (BitVec.ofNat 11 w)) else .widerThanAccessWord

/-- The decoder on an opcode-table word, in the phase a first access after reset meets: Off (R42). The
table gives every row 11 bits, so `nbits` selects nothing; a number with a bit above them is no word. -/
def decodeTableWord (_nbits w : Nat) : Option Instr :=
  match decodeNat .off w with
  | .instr i => some i
  | .widerThanAccessWord => none

/-- The register index (R20), REG of R70. -/
def regIndex : Reg → BitVec 2
  | .baud => 0
  | .status => 1
  | .data => 2
  | .ctrl => 3

/-- An access word from its fields (R70). -/
def accessWord (write : Bool) (r : Reg) (v : Byte) : AccessWord :=
  BitVec.ofBool write ++ regIndex r ++ v

/-- EA in its place, bit 6 of a CTRL value (R73). -/
def eaBit (ea : Bool) : Byte := if ea then 0x40 else 0x00

/-- The CTRL byte of each command row (R76, R77), with EA where the row stores it. -/
def encode : Instr → AccessWord
  | .rdBaud => accessWord false .baud 0
  | .rdStatus => accessWord false .status 0
  | .rdData => accessWord false .data 0
  | .rdCtrl => accessWord false .ctrl 0
  | .wrBaud v => accessWord true .baud v
  | .wrStatus v => accessWord true .status v
  | .wrData v => accessWord true .data v
  | .wrCtrl v => accessWord true .ctrl v
  | .enable ea => accessWord true .ctrl (0x04 ||| eaBit ea)
  | .disable ea => accessWord true .ctrl (0x00 ||| eaBit ea)
  | .start ea => accessWord true .ctrl (0xA4 ||| eaBit ea)
  | .repStart ea => accessWord true .ctrl (0xA4 ||| eaBit ea)
  | .stop ea => accessWord true .ctrl (0x94 ||| eaBit ea)
  | .transmitAddr ea => accessWord true .ctrl (0x84 ||| eaBit ea)
  | .transmitData ea => accessWord true .ctrl (0x84 ||| eaBit ea)
  | .receiveAck => accessWord true .ctrl 0xC4
  | .receiveNack => accessWord true .ctrl 0x84

/-- The instruction is how its own word reads in phase `p` (R76, R81): always for the first seven access
forms; for a command row where the table selects it in `p`; for the plain CTRL write where no command
row is selected. -/
def readsIn (p : Phase) : Instr → Bool
  | .rdBaud | .rdStatus | .rdData | .rdCtrl => true
  | .wrBaud _ | .wrStatus _ | .wrData _ => true
  | .wrCtrl v => !ctrlValueWellFormed v || (v &&& 0xBF == 0x84 && (continueCommand (ctrlEa v) p).isNone)
  | .enable _ | .disable _ | .stop _ => true
  | .start _ => p ≠ .mtDataAck
  | .repStart _ => p = .mtDataAck
  | .transmitAddr _ => p = .started || p = .repStarted
  | .transmitData _ => p = .mtSlaAck || p = .mtDataAck
  | .receiveAck | .receiveNack => p = .mrSlaAck || p = .mrDataAck

end Sys2Proof
end

