-- ==== Sys2Proof/Machine/State.lean ====
section
/-! DEFINITION. The state of the machine as plain data: the block's record of R43, the HOST that accesses
it, the script of BUS's choices, two counters of the model's own; the reasons a step can stop; reset. -/

namespace Sys2Proof.Machine

/-- The fault reasons (R264): there is one. -/
inductive Fault where
  /-- DATA holds no value the spec gives. Raised by RD DATA (R104) and by TRANSMIT_ADDR and TRANSMIT_DATA
  at their write (R160, R161). The spec states this stop itself: `none => raise Fault(DataUnwritten)` in
  both pseudocodes, its table of faults R264 ("The state is final"), and 93_implementation_defined.md part 1
  rows 11 and 12, whose treatment is "fault". Safe: the machine stops where the chip goes on with a byte
  the spec does not give. -/
  | dataUnwritten
  deriving DecidableEq, Repr, Inhabited

/-- The refusal reasons (R265). All are safe: the machine stops where the spec gives no meaning. -/
inductive Refusal where
  /-- Raised by exec's arm of an instruction that has no meaning yet. Safe. -/
  | notModelled (mnemonic : String)
  /-- Raised by any register write while a command is in flight or a START is queued (R101). Safe. -/
  | writeWhileInFlight
  /-- Raised by WR STATUS and WR BAUD while busy (R102). Safe. -/
  | configWhileBusy
  /-- Raised by WR CTRL with bit 3, 1 or 0 set (R75 check 1). Safe. -/
  | reservedBit
  /-- Raised by WR CTRL with INT = 0 and STA or STO set (R75 check 2). Safe. -/
  | requestWithoutTrigger
  /-- Raised by WR CTRL with INT = 1 and EN = 0 (R75 check 3). Safe. -/
  | triggerWhileDisabled
  /-- Raised by WR CTRL with INT, STA and STO set (R75 check 4). Safe. -/
  | startAndStop
  /-- Raised by a command the table R165 does not admit in the phase, and by a CTRL write that selects no
  command (R76). Safe. -/
  | notAdmitted
  /-- Raised by DISABLE outside Off and idle-and-not-busy (R171). Safe. -/
  | disableWhileActive
  /-- Raised by a call of a host procedure whose argument breaks its precondition, before its first
  access (R228), and by the HOST reading a buffer byte its memory does not hold (log entry 11). Safe. -/
  | hostPrecondition
  deriving DecidableEq, Repr, Inhabited

/-- The commands ENGINE completes (R37). -/
inductive Cmd where
  | start | transmit | recvAck | recvNack
  deriving DecidableEq, Repr, Inhabited

/-- One member of an outcome set of R183: the phase it leads to, its bus event, DATA after it. -/
structure Completion where
  phase : Phase
  event : BusEvent
  data : Option Byte
  deriving DecidableEq, Repr, Inhabited

/-- What a check and a public operation return (R133). -/
inductive Result where
  | success | error
  deriving DecidableEq, Repr, Inhabited

/-- The HOST's parameters (R8): UNIFORM_STOP_ON_ERROR, POLL_BOUND, INIT_DIVISOR, INIT_PRESCALER. -/
structure HostParams where
  uniformStop : Bool
  pollBound : Option Nat
  divisor : Byte
  prescaler : BitVec 2
  deriving DecidableEq, Repr

/-- A caller-allocated buffer in host memory: its first address and how many bytes it holds (R228). -/
structure Buffer where
  base : Nat
  size : Nat
  deriving DecidableEq, Repr

/-- A call of one of the ten public operations (R229 to R238). Addresses are numbers, so that one above
0x7F can be spelled and refused (R228). -/
inductive Call where
  | init
  | probe (a : Nat)
  | write (a : Nat) (d : Byte)
  | writeReg (a : Nat) (r d : Byte)
  | writeMulti (a : Nat) (bytes : Buffer) (n : Nat)
  | writeMultiReg (a : Nat) (r : Byte) (bytes : Buffer) (n : Nat)
  | read (a : Nat) (out : Buffer)
  | readReg (a : Nat) (r : Byte) (out : Buffer)
  | readMulti (a : Nat) (out : Buffer) (n : Nat)
  | readMultiReg (a : Nat) (r : Byte) (out : Buffer) (n : Nat)
  deriving DecidableEq, Repr

/-- One operation of the HOST: a register access with what the HOST does with its result, or the start
or the end of a procedure. -/
inductive HostOp where
  /-- one register access by its word (R70); a value read is only kept in `Driver.value` -/
  | access (w : AccessWord)
  /-- the completion poll (R225), with the number of reads left where it is bounded -/
  | poll (left : Option Nat)
  /-- read STATUS and compare (R133); on a mismatch end the operation with Error, after a STOP if
  `stopOnError` (R227) -/
  | check (expected : Byte) (stopOnError : Bool)
  /-- MemRead of one byte and the DATA write that sends it (R233) -/
  | loadData (a : Nat)
  /-- the DATA read of a receive and the MemWrite of its byte (R226, R235) -/
  | storeData (a : Nat)
  /-- a procedure call (R228) -/
  | call (p : HostParams) (c : Call)
  /-- the end of a procedure, with its result -/
  | ret (r : Result)
  deriving DecidableEq, Repr

/-- The HOST (R5): what it has still to do, its memory, the byte its last read returned, what its calls
returned (oldest first). -/
structure Driver where
  ops : List HostOp
  mem : List Host.Cell
  value : Option Byte
  results : List Result
  deriving DecidableEq, Repr

/-- The machine. The fields down to `refused` are the record of R43, in its order. -/
@[ext]
structure State where
  /-- the phase state (R33) -/
  phase : Phase
  /-- CTRL bit 7, the operation-complete flag (R24) -/
  int : Bool
  /-- CTRL bit 6, acknowledge enable (R25) -/
  ea : Bool
  /-- CTRL bit 5, start request (R26) -/
  sta : Bool
  /-- CTRL bit 4, stop request: 1 while a stop is pending (R27) -/
  sto : Bool
  /-- CTRL bit 2, enable (R28) -/
  en : Bool
  /-- STATUS bits 1:0, the prescaler selector (R32) -/
  ps : BitVec 2
  /-- BAUD, the clock divisor (R36) -/
  baud : Byte
  /-- DATA; `none` is the spec's own value "holds no value the spec gives" (R35) -/
  data : Option Byte
  /-- the command triggered and not completed (R37) -/
  inflight : Option Cmd
  /-- a START written while a stop was pending (R37) -/
  queued : Bool
  /-- the bus events so far, oldest first (R39) -/
  trace : List BusEvent
  /-- the sticky fault mark (R40) -/
  fault : Option Fault
  /-- the sticky refusal mark (R40) -/
  refused : Option Refusal
  /-- the HOST (R5), outside the block -/
  driver : Driver
  /-- BUS's next choices, first to come first; past its end they are free (R184) -/
  bus : List BusMove
  /-- the model's own: steps taken; it indexes BUS's free choices -/
  tick : Nat
  /-- the model's own: ENGINE steps and HOST writes taken; it indexes the draws of R31 and R104 -/
  epoch : Nat
  deriving DecidableEq, Repr

/-- The HOST at reset: nothing to do, nothing in memory, nothing read, nothing returned. -/
def Driver.reset : Driver where
  ops := []
  mem := []
  value := none
  results := []

/-- The machine after reset (R42, R290). -/
def State.reset : State where
  phase := .off
  int := false
  ea := false
  sta := false
  sto := false
  en := false
  ps := 0
  baud := 0x00
  data := none
  inflight := none
  queued := false
  trace := []
  fault := none
  refused := none
  driver := Driver.reset
  bus := []
  tick := 0
  epoch := 0

end Sys2Proof.Machine
end

