-- ==== Sys2Proof/Machine/Ops.lean ====
section
/-! DEFINITION. The named operations over the state: the updates every meaning is built from, the
predicates of R38, the marks (R11, R40, R100), admission (R101, R102, R165), the trigger, and host memory.
The block takes no exception and returns from none (R260): the counterpart of taking one is `complete`
(R181, R268), of returning from one `trigger` (R269). -/

namespace Sys2Proof.Machine

/-- What a meaning and a step answer. -/
abbrev Answered := Host.Outcome State Fault Refusal

/-! ### Updates -/

/-- `s.phase <- p`. -/
def State.setPhase (p : Phase) (s : State) : State := { s with phase := p }
/-- `s.int <- b`. -/
def State.setInt (b : Bool) (s : State) : State := { s with int := b }
/-- `s.ea <- b`. -/
def State.setEa (b : Bool) (s : State) : State := { s with ea := b }
/-- `s.sta <- b`. -/
def State.setSta (b : Bool) (s : State) : State := { s with sta := b }
/-- `s.sto <- b`. -/
def State.setSto (b : Bool) (s : State) : State := { s with sto := b }
/-- `s.en <- b`. -/
def State.setEn (b : Bool) (s : State) : State := { s with en := b }
/-- `s.ps <- v`. -/
def State.setPs (v : BitVec 2) (s : State) : State := { s with ps := v }
/-- `s.baud <- v`. -/
def State.setBaud (v : Byte) (s : State) : State := { s with baud := v }
/-- `s.data <- d`. -/
def State.setData (d : Option Byte) (s : State) : State := { s with data := d }
/-- `s.inflight <- c`. -/
def State.setInflight (c : Option Cmd) (s : State) : State := { s with inflight := c }
/-- `s.queued <- b`. -/
def State.setQueued (b : Bool) (s : State) : State := { s with queued := b }
/-- `emit(e)` (R10, R200). -/
def State.emit (e : BusEvent) (s : State) : State := { s with trace := s.trace ++ [e] }
/-- The HOST after something it did. -/
def State.setDriver (d : Driver) (s : State) : State := { s with driver := d }
/-- A read returns `v` to the HOST (R103 to R106). -/
def State.readBack (v : Byte) (s : State) : State :=
  { s with driver := { s.driver with value := some v } }
/-- The HOST's next operations. -/
def State.setOps (ops : List HostOp) (s : State) : State :=
  { s with driver := { s.driver with ops := ops } }
/-- A call returns `r` to the HOST's caller (R240). -/
def State.addResult (r : Result) (s : State) : State :=
  { s with driver := { s.driver with results := s.driver.results ++ [r] } }
/-- BUS's remaining script. -/
def State.setBus (b : List BusMove) (s : State) : State := { s with bus := b }
/-- One step has been taken. -/
def State.nextTick (s : State) : State := { s with tick := s.tick + 1 }
/-- The unspecified register contents may have changed (R58). -/
def State.nextEpoch (s : State) : State := { s with epoch := s.epoch + 1 }

/-! ### Predicates -/

/-- A command is in flight, or a START is queued behind a stop (R38). -/
def State.inFlight (s : State) : Bool := s.inflight.isSome || s.queued

/-- In flight, or a stop is pending (R38). -/
def State.busy (s : State) : Bool := s.inFlight || s.sto

/-- The block holds the bus as master (R33, the owner column). -/
def owner : Phase → Bool
  | .started | .repStarted => true
  | .mtSlaAck | .mtSlaNack | .mtDataAck | .mtDataNack => true
  | .mrSlaAck | .mrSlaNack | .mrDataAck | .mrDataNack => true
  | .off | .idle | .arbLost | .busError => false

/-! ### Marks, faults, refusals -/

/-- `raise Fault(r)` (R10): the run ends. -/
def raiseFault (r : Fault) : Answered := .fault r

/-- `refuse(r)` (R10): the run ends. -/
def refuse (r : Refusal) : Answered := .refused r

/-- A marked state is final (R11, R100): it stops with the mark's own reason; any other goes on with `k`. -/
def unlessMarked (s : State) (k : Answered) : Answered :=
  match s.fault with
  | some r => raiseFault r
  | none =>
    match s.refused with
    | some r => refuse r
    | none => k

/-- The state a run is in after an answer, with the marks of R40: a fault and a refusal leave the state as
it was and record their reason, nothing else (R264). -/
def settle (s : State) : Answered → State
  | .next t => t
  | .fault r => { s with fault := some r }
  | .refused r => { s with refused := some r }

/-- Go on from an answer's next state. -/
def andThen (o : Answered) (k : State → Answered) : Answered :=
  match o with
  | .next t => k t
  | .fault r => .fault r
  | .refused r => .refused r

/-- Change an answer's next state. -/
def mapNext (f : State → State) (o : Answered) : Answered := andThen o fun t => .next (f t)

/-! ### Admission -/

/-- A register write (R100, R101): refused while in flight. -/
def hostWrite (s : State) (k : Answered) : Answered :=
  unlessMarked s (if s.inFlight then refuse .writeWhileInFlight else k)

/-- A STATUS or BAUD write (R102, R266): refused while in flight, then while busy. -/
def configWrite (s : State) (k : Answered) : Answered :=
  hostWrite s (if s.busy then refuse .configWhileBusy else k)

/-- The reason a defect of a CTRL value is refused with (R75). -/
def defectReason : CtrlDefect → Refusal
  | .reservedBit => .reservedBit
  | .requestWithoutTrigger => .requestWithoutTrigger
  | .triggerWhileDisabled => .triggerWhileDisabled
  | .startAndStop => .startAndStop

/-- The admission table (R165), a row a phase; ENABLE and DISABLE have rules of their own (R170, R171) and
are admitted here. -/
def admitted (c : Command) (p : Phase) : Bool :=
  match c with
  | .enable | .disable => true
  | .start => [Phase.idle, .arbLost].contains p
  | .repStart => [Phase.mtDataAck].contains p
  | .stop =>
    [Phase.idle, .mtSlaAck, .mtSlaNack, .mtDataAck, .mtDataNack, .arbLost, .mrSlaNack, .mrDataNack,
      .busError].contains p
  | .transmitAddr => [Phase.started, .repStarted].contains p
  | .transmitData => [Phase.mtSlaAck, .mtDataAck].contains p
  | .receiveAck | .receiveNack => [Phase.mrSlaAck, .mrDataAck].contains p

/-- A command's CTRL write (R107, R165, R266): refused while in flight, then where not admitted. -/
def command (c : Command) (s : State) (k : Answered) : Answered :=
  hostWrite s (if admitted c s.phase then k else refuse .notAdmitted)

/-! ### The writes a command makes -/

/-- What every admitted triggering write does (R107): INT is cleared, EA and STA are taken from the value,
EN is set. It is also the counterpart of a return from a trap (R269). -/
def State.trigger (ea sta : Bool) (s : State) : State :=
  (((s.setInt false).setEa ea).setSta sta).setEn true

/-- The operand of a transmit: DATA, or the fault where it holds no value, as the pseudocode of R160 says
(`none => raise Fault(DataUnwritten)`; R161 the same; R264). -/
def withData (s : State) (k : Byte → Answered) : Answered :=
  match s.data with
  | some b => k b
  | none => raiseFault .dataUnwritten

/-- START at its write (R150): queued behind a pending stop, else in flight. -/
def State.beginStart (s : State) : State :=
  if s.sto then s.setQueued true else s.setInflight (some .start)

/-- STOP at its write (R152): the `Stop` event if the block owns the bus, the phase Idle, STO pending. -/
def State.beginStop (s : State) : State :=
  ((if owner s.phase then s.emit .stop else s).setPhase .idle).setSto true

/-- The stop step of ENGINE (R180). -/
def State.stopDone (s : State) : State :=
  if s.queued then ((s.setSto false).setQueued false).setInflight (some .start) else s.setSto false

/-- The completion step of ENGINE (R181): the counterpart of trap entry (R268). -/
def State.complete (o : Completion) (s : State) : State :=
  ((((s.setPhase o.phase).setData o.data).emit o.event).setInt true).setInflight none

/-! ### Host memory (R10, R52) -/

/-- MemRead of one byte: `none` where nothing was ever stored (log entry 11). -/
def memRead (m : List Host.Cell) (a : Nat) : Option Byte :=
  match m with
  | [] => none
  | (b, v) :: rest => if a = b then some v else memRead rest a

/-- MemWrite of one byte, keeping the addresses rising. -/
def memWrite (m : List Host.Cell) (a : Nat) (v : Byte) : List Host.Cell :=
  match m with
  | [] => [(a, v)]
  | (b, w) :: rest =>
    if a < b then (a, v) :: (b, w) :: rest
    else if a = b then (a, v) :: rest
    else (b, w) :: memWrite rest a v

/-- Every address of the list is above `a` and they rise strictly. -/
def risingFrom (a : Nat) : List Host.Cell → Bool
  | [] => true
  | (b, _) :: rest => a < b && risingFrom b rest

/-- The canonical form of host memory: addresses strictly rising. An unlisted address reads as no value,
so no entry can equal what an unlisted address reads as. -/
def Memory.wf : List Host.Cell → Bool
  | [] => true
  | (a, _) :: rest => risingFrom a rest

/-- MemWrite in the state. -/
def State.storeByte (a : Nat) (v : Byte) (s : State) : State :=
  { s with driver := { s.driver with mem := memWrite s.driver.mem a v } }

end Sys2Proof.Machine
end

