-- ==== Sys2Proof/Machine/Operands.lean ====
section
/-! DEFINITION. The operand forms: the address byte (R78), the DATA, STATUS and BAUD write operands (R79),
and the views of the line driver that a byte and the clock fields have (R203, R206, R207). -/

namespace Sys2Proof.Machine

/-- The address byte (R78): the 7-bit address, then the direction bit (0 = write, 1 = read). -/
def slaByte (a : SlaveAddress) (d : BitVec 1) : Byte := a ++ d

/-- SLA+W (R78). -/
def slaW (a : SlaveAddress) : Byte := slaByte a 0

/-- SLA+R (R78). -/
def slaR (a : SlaveAddress) : Byte := slaByte a 1

/-- Bits 7:1 of an address byte: the address sent (R78, R203). -/
def slaAddress (b : Byte) : SlaveAddress := b.extractLsb' 1 7

/-- Bit 0 of an address byte: true is read (R78, R160). -/
def slaIsRead (b : Byte) : Bool := b.getLsbD 0

/-- The DATA write operand: the byte as it is (R79). -/
def dataOperand (v : Byte) : Byte := v

/-- The STATUS write operand: bits 1:0, the rest ignored (R79, R30). -/
def statusOperand (v : Byte) : BitVec 2 := v.extractLsb' 0 2

/-- The BAUD write operand: the byte as it is (R79). -/
def baudOperand (v : Byte) : Byte := v

/-- The bits of a byte in the order they go on SDA, most significant first (R203). Nothing reads it.
PRESUMED (D24); log entry 15. -/
def wireBits (b : Byte) : List Bool :=
  [b.getLsbD 7, b.getLsbD 6, b.getLsbD 5, b.getLsbD 4, b.getLsbD 3, b.getLsbD 2, b.getLsbD 1, b.getLsbD 0]

/-- The prescaler factor of PS (R207). Nothing reads it. PRESUMED; log entry 15. -/
def prescalerFactor (ps : BitVec 2) : Nat := 4 ^ ps.toNat

/-- The number F_CPU is divided by to give the SCL rate (R206). Nothing reads it. PRESUMED; log entry 15. -/
def sclDivider (baud : Byte) (ps : BitVec 2) : Nat := 16 + 2 * baud.toNat * prescalerFactor ps

end Sys2Proof.Machine
end

