-- ==== Sys2Proof/Machine/Flags.lean ====
section
/-! DEFINITION. The flag computations: the byte CTRL reads as (R103), the status code of a phase (R34), the
byte STATUS reads as (R105), the byte DATA reads as (R104), and the status decoder (R130, R131, R133). -/

namespace Sys2Proof.Machine

/-- The byte a CTRL read returns (R103, R23): INT, EA, STA, STO, 0, EN, 0, 0. -/
def State.ctrlByte (s : State) : Byte :=
  BitVec.ofBool s.int ++ BitVec.ofBool s.ea ++ BitVec.ofBool s.sta ++ BitVec.ofBool s.sto ++
    0#1 ++ BitVec.ofBool s.en ++ 0#2

/-- The code byte of a phase (R34, R33), with IDLE_CODE as a parameter (R8). -/
def phaseCode (idleCode : Byte) : Phase → Byte
  | .off | .idle => idleCode
  | .started => 0x08
  | .repStarted => 0x10
  | .mtSlaAck => 0x18
  | .mtSlaNack => 0x20
  | .mtDataAck => 0x28
  | .mtDataNack => 0x30
  | .arbLost => 0x38
  | .mrSlaAck => 0x40
  | .mrSlaNack => 0x48
  | .mrDataAck => 0x50
  | .mrDataNack => 0x58
  | .busError => 0x00

/-- STATUS bits 7:3 (R31, R105): the code of the phase; a free value while busy. -/
def State.statusField (s : State) : BitVec 5 :=
  if s.busy then Config.freeStatusCode s.epoch else (phaseCode Config.idleCode s.phase).extractLsb' 3 5

/-- The byte a STATUS read returns (R105): the code, 0, PS. -/
def State.statusByte (s : State) : Byte := s.statusField ++ 0#1 ++ s.ps

/-- The byte a DATA read returns (R104): a free value in flight, else DATA, `none` where it holds no value. -/
def State.dataByte (s : State) : Option Byte :=
  if s.inFlight then some (Config.freeDataByte s.epoch) else s.data

/-! ### The status decoder -/

/-- The mask (R130). -/
def statusCode (v : Byte) : Byte := v &&& 0xF8

/-- The decoder's cases (R131): one per row of the code table, and one more. -/
inductive StatusCode where
  | start | repStart | slaWAck | slaWNack | dataTxAck | dataTxNack | arbLost
  | slaRAck | slaRNack | dataRxAck | dataRxNack
  | unrecognized (c : Byte)
  deriving DecidableEq, Repr

/-- The decoder (R131, R132). -/
def decodeStatus (v : Byte) : StatusCode :=
  let c := statusCode v
  if c = 0x08 then .start
  else if c = 0x10 then .repStart
  else if c = 0x18 then .slaWAck
  else if c = 0x20 then .slaWNack
  else if c = 0x28 then .dataTxAck
  else if c = 0x30 then .dataTxNack
  else if c = 0x38 then .arbLost
  else if c = 0x40 then .slaRAck
  else if c = 0x48 then .slaRNack
  else if c = 0x50 then .dataRxAck
  else if c = 0x58 then .dataRxNack
  else .unrecognized c

/-- The comparison of `check` (R133) on the value a STATUS read returned. -/
def checkStatus (expected v : Byte) : Result :=
  if statusCode v = expected then .success else .error

/-- The code a phase is checked with (R134): by the command just completed and, for an address byte, its
direction; none for a command that completes nothing. -/
def expectedCode (c : Command) (isRead : Bool) : Option Byte :=
  match c with
  | .start => some 0x08
  | .repStart => some 0x10
  | .transmitAddr => some (if isRead then 0x40 else 0x18)
  | .transmitData => some 0x28
  | .receiveAck => some 0x50
  | .receiveNack => some 0x58
  | .enable | .disable | .stop => none

end Sys2Proof.Machine
end

