-- ==== Sys2Proof/Machine/BusCommands.lean ====
section
/-! DEFINITION. The HOST side of the triggered commands (R150 to R163): what each CTRL write does at once.
ENGINE completes them in Engine.lean. -/

namespace Sys2Proof.Machine

/-- START (R150). -/
def execStart (ea : Bool) (s : State) : Answered :=
  command .start s (.next (s.trigger ea true).beginStart)

/-- REP_START (R151). -/
def execRepStart (ea : Bool) (s : State) : Answered :=
  command .repStart s (.next ((s.trigger ea true).setInflight (some .start)))

/-- STOP (R152): a triggering write, so its pseudocode takes EA from the value as R107, the preamble of
42_bus_phases.md, R152 "State written" and R25 say. DEDUCED (log entry 20) that the pseudocode holds in Idle too,
also while a stop is pending, against the prose of R59, R249 and R152's first corner case, which say that nothing
but STO changes there: where the EA written is the EA held, all of them hold. -/
def execStop (ea : Bool) (s : State) : Answered :=
  command .stop s (.next (s.trigger ea false).beginStop)

/-- TRANSMIT_ADDR (R160): DATA is read at the write; its bit 0 decides at completion. -/
def execTransmitAddr (ea : Bool) (s : State) : Answered :=
  command .transmitAddr s
    (withData s fun _ => .next ((s.trigger ea false).setInflight (some .transmit)))

/-- TRANSMIT_DATA (R161). -/
def execTransmitData (ea : Bool) (s : State) : Answered :=
  command .transmitData s
    (withData s fun _ => .next ((s.trigger ea false).setInflight (some .transmit)))

/-- RECEIVE_ACK (R162): EA = 1. -/
def execReceiveAck (s : State) : Answered :=
  command .receiveAck s (.next ((s.trigger true false).setInflight (some .recvAck)))

/-- RECEIVE_NACK (R163): EA = 0. -/
def execReceiveNack (s : State) : Answered :=
  command .receiveNack s (.next ((s.trigger false false).setInflight (some .recvNack)))

end Sys2Proof.Machine
end

