-- ==== Sys2Proof/Machine/EnableDisable.lean ====
section
/-! DEFINITION. The CTRL writes that trigger nothing: ENABLE (R170) and DISABLE (R171). INT and STO are
unchanged by both: a 0 written to either has no effect (R24, R27). -/

namespace Sys2Proof.Machine

/-- ENABLE (R170): Off becomes Idle, any other phase stays. -/
def execEnable (ea : Bool) (s : State) : Answered :=
  command .enable s <|
    let t := ((s.setEa ea).setSta false).setEn true
    .next (if s.phase = .off then t.setPhase .idle else t)

/-- DISABLE is admitted in Off, and in Idle when not busy (R171). -/
def disableAdmitted (s : State) : Bool := s.phase = .off || (s.phase = .idle && !s.busy)

/-- DISABLE (R171): DATA, BAUD and PS are kept. -/
def execDisable (ea : Bool) (s : State) : Answered :=
  command .disable s <|
    if disableAdmitted s then .next ((((s.setEa ea).setSta false).setEn false).setPhase .off)
    else refuse .disableWhileActive

end Sys2Proof.Machine
end

