-- ==== Sys2Proof/Machine/ControlWrite.lean ====
section
/-! DEFINITION. WR CTRL (R107): the value checks, the selection of a command by value and phase, and the
selected command's own meaning. -/

namespace Sys2Proof.Machine

/-- `perform(cmd, v, s)` of R107: the meaning of the selected command, with EA from the value written. -/
def perform (c : Command) (ea : Bool) (s : State) : Answered :=
  match c with
  | .enable => execEnable ea s
  | .disable => execDisable ea s
  | .start => execStart ea s
  | .repStart => execRepStart ea s
  | .stop => execStop ea s
  | .transmitAddr => execTransmitAddr ea s
  | .transmitData => execTransmitData ea s
  | .receiveAck => execReceiveAck s
  | .receiveNack => execReceiveNack s

/-- WR CTRL (R107), in the order of R266: in flight, value checks (R75), selection (R76), then the selected
command's admission and effect. -/
def execWrCtrl (v : Byte) (s : State) : Answered :=
  hostWrite s <|
    match ctrlDefect v with
    | some d => refuse (defectReason d)
    | none =>
      match selectCommand v s.phase with
      | some c => perform c (ctrlEa v) s
      | none => refuse .notAdmitted

end Sys2Proof.Machine
end

