-- ==== Sys2Proof/Machine/RegisterReads.lean ====
section
/-! DEFINITION. The four register reads (R103 to R106). A read writes no state of the block (R58); the byte
it returns goes to the HOST. -/

namespace Sys2Proof.Machine

/-- RD CTRL (R103). -/
def execRdCtrl (s : State) : Answered := unlessMarked s (.next (s.readBack s.ctrlByte))

/-- RD DATA (R104): the fault where DATA holds no value and nothing is in flight, as the rule's pseudocode
says (`none => raise Fault(DataUnwritten)`; R264). In flight the byte is free. -/
def execRdData (s : State) : Answered :=
  unlessMarked s <|
    match s.dataByte with
    | some b => .next (s.readBack b)
    | none => raiseFault .dataUnwritten

/-- RD STATUS (R105). -/
def execRdStatus (s : State) : Answered := unlessMarked s (.next (s.readBack s.statusByte))

/-- RD BAUD (R106). -/
def execRdBaud (s : State) : Answered := unlessMarked s (.next (s.readBack s.baud))

end Sys2Proof.Machine
end

