-- ==== Sys2Proof/Machine/RegisterWrites.lean ====
section
/-! DEFINITION. The register writes that only store (R108 to R110). -/

namespace Sys2Proof.Machine

/-- WR DATA (R108): admitted in every phase, also while a stop is pending. -/
def execWrData (v : Byte) (s : State) : Answered :=
  hostWrite s (.next (s.setData (some (dataOperand v))))

/-- WR STATUS (R109): only PS is stored. -/
def execWrStatus (v : Byte) (s : State) : Answered :=
  configWrite s (.next (s.setPs (statusOperand v)))

/-- WR BAUD (R110). -/
def execWrBaud (v : Byte) (s : State) : Answered :=
  configWrite s (.next (s.setBaud (baudOperand v)))

end Sys2Proof.Machine
end

