-- ==== Sys2Proof/Machine/Dispatch.lean ====
section
/-! DEFINITION. One arm per instruction: each is one direct call of that instruction's meaning. -/

namespace Sys2Proof.Machine

/-- What one HOST access does to the state. -/
def exec (i : Instr) (s : State) : Host.Outcome State Fault Refusal :=
  match i with
  | .rdBaud => Sys2Proof.Machine.execRdBaud s
  | .rdStatus => Sys2Proof.Machine.execRdStatus s
  | .rdData => Sys2Proof.Machine.execRdData s
  | .rdCtrl => Sys2Proof.Machine.execRdCtrl s
  | .wrBaud v => Sys2Proof.Machine.execWrBaud v s
  | .wrStatus v => Sys2Proof.Machine.execWrStatus v s
  | .wrData v => Sys2Proof.Machine.execWrData v s
  | .wrCtrl v => Sys2Proof.Machine.execWrCtrl v s
  | .enable ea => Sys2Proof.Machine.execEnable ea s
  | .disable ea => Sys2Proof.Machine.execDisable ea s
  | .start ea => Sys2Proof.Machine.execStart ea s
  | .repStart ea => Sys2Proof.Machine.execRepStart ea s
  | .stop ea => Sys2Proof.Machine.execStop ea s
  | .transmitAddr ea => Sys2Proof.Machine.execTransmitAddr ea s
  | .transmitData ea => Sys2Proof.Machine.execTransmitData ea s
  | .receiveAck => Sys2Proof.Machine.execReceiveAck s
  | .receiveNack => Sys2Proof.Machine.execReceiveNack s

end Sys2Proof.Machine
end

