-- ==== Sys2Proof/Machine/Engine.lean ====
section
/-! DEFINITION. ENGINE and BUS: the outcome sets (R183), the two ENGINE steps (R180, R181, R182), and
BUS's choice of the moment and the outcome (R184). -/

namespace Sys2Proof.Machine

/-- The error members of a row (R183): ArbLost, and BusError where ENV_BUS_ERROR is true; `d` is DATA
after it. -/
def failedOutcome (busErr : Bool) (d : Option Byte) (a : Answer) : Option Completion :=
  match a with
  | .lost => some { phase := .arbLost, event := .lost, data := d }
  | .busErr => if busErr then some { phase := .busError, event := .busErr, data := d } else none
  | .success | .nack => none

/-- A row whose first member is `o` and which has no Nack member (starts and receives, R183). -/
def plainRow (busErr : Bool) (o : Completion) (a : Answer) : Option Completion :=
  match a with
  | .success => some o
  | .nack | .lost | .busErr => failedOutcome busErr o.data a

/-- The transmit row with byte `b` (R183): to `acked` on Ack, to `nacked` on Nack, DATA `none` after it. -/
def transmitRow (busErr : Bool) (b : Byte) (acked nacked : Phase) (a : Answer) : Option Completion :=
  match a with
  | .success => some { phase := acked, event := .byte b .ack, data := none }
  | .nack => some { phase := nacked, event := .byte b .nack, data := none }
  | .lost | .busErr => failedOutcome busErr none a

/-- The outcome sets (R183): the member of `Outcomes(c, p, d)` that BUS's answer `a` with byte `r` names;
none where the row has no such member, or where there is no row. `busErr` is ENV_BUS_ERROR. -/
def outcome (busErr : Bool) (c : Cmd) (p : Phase) (d : Option Byte) (a : Answer) (r : Byte) :
    Option Completion :=
  match c with
  | .start =>
    match p with
    | .idle | .arbLost => plainRow busErr { phase := .started, event := .start, data := d } a
    | .mtDataAck => plainRow busErr { phase := .repStarted, event := .repStart, data := d } a
    | .off | .started | .repStarted | .mtSlaAck | .mtSlaNack | .mtDataNack | .mrSlaAck | .mrSlaNack
    | .mrDataAck | .mrDataNack | .busError => none
  | .transmit =>
    match d with
    | none => none
    | some b =>
      match p with
      | .started | .repStarted =>
        if slaIsRead b then transmitRow busErr b .mrSlaAck .mrSlaNack a
        else transmitRow busErr b .mtSlaAck .mtSlaNack a
      | .mtSlaAck | .mtDataAck => transmitRow busErr b .mtDataAck .mtDataNack a
      | .off | .idle | .mtSlaNack | .mtDataNack | .arbLost | .mrSlaAck | .mrSlaNack | .mrDataAck
      | .mrDataNack | .busError => none
  | .recvAck =>
    match p with
    | .mrSlaAck | .mrDataAck =>
      plainRow busErr { phase := .mrDataAck, event := .recv r .ack, data := some r } a
    | .off | .idle | .started | .repStarted | .mtSlaAck | .mtSlaNack | .mtDataAck | .mtDataNack | .arbLost
    | .mrSlaNack | .mrDataNack | .busError => none
  | .recvNack =>
    match p with
    | .mrSlaAck | .mrDataAck =>
      plainRow busErr { phase := .mrDataNack, event := .recv r .nack, data := some r } a
    | .off | .idle | .started | .repStarted | .mtSlaAck | .mtSlaNack | .mtDataAck | .mtDataNack | .arbLost
    | .mrSlaNack | .mrDataNack | .busError => none

/-- The outcome in a state, with ENV_BUS_ERROR as Config has it (R181). -/
def State.outcome (s : State) (c : Cmd) (a : Answer) (r : Byte) : Option Completion :=
  Sys2Proof.Machine.outcome Config.envBusError c s.phase s.data a r

/-- The stop step is enabled (R180). -/
def State.stopReady (s : State) : Bool := s.sto

/-- The completion step is enabled (R181): a command is in flight and its outcome set is not empty. Every
row has its first member. -/
def State.completionReady (s : State) : Bool :=
  match s.inflight with
  | some c => (s.outcome c .success 0).isSome
  | none => false

/-- ENGINE has a step (R180, R181, R182). -/
def State.engineReady (s : State) : Bool := s.stopReady || s.completionReady

/-- The ENGINE step that BUS's choice makes happen; none where BUS lets none happen, or names no member of
the outcome set. A pending stop is taken before a command in flight; R267 says both never are. -/
def State.engineStep (m : BusMove) (s : State) : Option State :=
  match m with
  | .wait => none
  | .complete a r =>
    if s.stopReady then some s.stopDone
    else
      match s.inflight with
      | none => none
      | some c => (s.outcome c a r).map fun o => s.complete o

/-- BUS's choice in this step (R184): the next of the script; past its end a free value. -/
def State.busMove (s : State) : BusMove :=
  match s.bus with
  | m :: _ => m
  | [] => Config.freeBusMove s.tick

/-- The state with the choice of this step taken from the script. -/
def State.takeBusMove (s : State) : State := s.setBus s.bus.tail

end Sys2Proof.Machine
end

