-- ==== Sys2Proof/Machine/Procedures.lean ====
section
/-! DEFINITION. The source's host procedures as lists of HOST operations (R220 to R240): the primitives,
the preconditions, the ten public operations, the abort of one. -/

namespace Sys2Proof.Machine

/-- The HOST's parameters at their defaults (R8). -/
def defaultParams : HostParams where
  uniformStop := Config.uniformStopOnError
  pollBound := Config.pollBound
  divisor := Config.initDivisor
  prescaler := Config.initPrescaler

/-- RegWrite of R10, as an operation. -/
def regWrite (r : Reg) (v : Byte) : HostOp := .access (accessWord true r v)

/-! ### Primitives -/

/-- `configure(d, p)` (R220): STATUS first (D31). -/
def configureOps (d : Byte) (p : BitVec 2) : List HostOp :=
  [regWrite .status (p.setWidth 8), regWrite .baud d]

/-- `enable()` (R221). -/
def enableOps : List HostOp := [regWrite .ctrl 0x04]

/-- `await_completion()` (R225). -/
def awaitOps (p : HostParams) : List HostOp := [.poll p.pollBound]

/-- `start()` (R222). -/
def startOps (p : HostParams) : List HostOp := regWrite .ctrl 0xA4 :: awaitOps p

/-- `stop()` (R223): no poll. -/
def stopOps : List HostOp := [regWrite .ctrl 0x94]

/-- `transmit(b)` (R224). -/
def transmitOps (p : HostParams) (b : Byte) : List HostOp :=
  regWrite .data b :: regWrite .ctrl 0x84 :: awaitOps p

/-- `transmit(MemRead(a, 1))` (R233). -/
def transmitMemOps (p : HostParams) (a : Nat) : List HostOp :=
  .loadData a :: regWrite .ctrl 0x84 :: awaitOps p

/-- `MemWrite(a, 1, receive_with_ack())` (R226). -/
def receiveAckOps (p : HostParams) (a : Nat) : List HostOp :=
  regWrite .ctrl 0xC4 :: awaitOps p ++ [.storeData a]

/-- `MemWrite(a, 1, receive_with_nack())` (R226). -/
def receiveNackOps (p : HostParams) (a : Nat) : List HostOp :=
  regWrite .ctrl 0x84 :: awaitOps p ++ [.storeData a]

/-- `phase(prim, code)` (R227): a failure is followed by stop. -/
def phaseOps (prim : List HostOp) (code : Byte) : List HostOp := prim ++ [.check code true]

/-- `firstPhase(prim, code)` (R227): a failure is followed by stop only with UNIFORM_STOP_ON_ERROR. -/
def firstPhaseOps (p : HostParams) (prim : List HostOp) (code : Byte) : List HostOp :=
  prim ++ [.check code p.uniformStop]

/-! ### The ten public operations -/

/-- The start phase of every operation but `init` (R230). -/
def startPhaseOps (p : HostParams) : List HostOp := firstPhaseOps p (startOps p) 0x08

/-- The address phase with W (R230). -/
def addressWriteOps (p : HostParams) (a : Nat) : List HostOp :=
  phaseOps (transmitOps p (slaW (BitVec.ofNat 7 a))) 0x18

/-- The address phase with R (R235). -/
def addressReadOps (p : HostParams) (a : Nat) : List HostOp :=
  phaseOps (transmitOps p (slaR (BitVec.ofNat 7 a))) 0x40

/-- A register-offset or data byte (R231, R232). -/
def byteOps (p : HostParams) (b : Byte) : List HostOp := phaseOps (transmitOps p b) 0x28

/-- The bytes of a host buffer in increasing index order (R233). -/
def bufferOps (p : HostParams) (base n : Nat) : List HostOp :=
  (List.range n).flatMap fun i => phaseOps (transmitMemOps p (base + i)) 0x28

/-- The last receive (R235, R237). -/
def lastReceiveOps (p : HostParams) (a : Nat) : List HostOp := phaseOps (receiveNackOps p a) 0x58

/-- The receives of `read_multi` (R237): NACK for the last byte, ACK for every earlier one. -/
def receiveOps (p : HostParams) (base n : Nat) : List HostOp :=
  (List.range n).flatMap fun i =>
    if i + 1 = n then lastReceiveOps p (base + i) else phaseOps (receiveAckOps p (base + i)) 0x50

/-- Start, address with W, register-offset byte (R232, R236). -/
def registerPreambleOps (p : HostParams) (a : Nat) (r : Byte) : List HostOp :=
  startPhaseOps p ++ addressWriteOps p a ++ byteOps p r

/-- Repeated start, address with R (R236). -/
def turnaroundOps (p : HostParams) (a : Nat) : List HostOp :=
  firstPhaseOps p (startOps p) 0x10 ++ addressReadOps p a

/-- The success path's end. -/
def successOps : List HostOp := stopOps ++ [.ret .success]

/-- The ten public operations (R229 to R238), as what the HOST does on the success path; every failing
check ends one early (R240). -/
def expand (p : HostParams) : Call → List HostOp
  | .init => configureOps p.divisor p.prescaler ++ enableOps ++ [.ret .success]
  | .probe a => startPhaseOps p ++ addressWriteOps p a ++ successOps
  | .write a d => startPhaseOps p ++ addressWriteOps p a ++ byteOps p d ++ successOps
  | .writeReg a r d => registerPreambleOps p a r ++ byteOps p d ++ successOps
  | .writeMulti a bytes n =>
    startPhaseOps p ++ addressWriteOps p a ++ bufferOps p bytes.base n ++ successOps
  | .writeMultiReg a r bytes n =>
    registerPreambleOps p a r ++ bufferOps p bytes.base n ++ successOps
  | .read a out => startPhaseOps p ++ addressReadOps p a ++ lastReceiveOps p out.base ++ successOps
  | .readReg a r out =>
    registerPreambleOps p a r ++ turnaroundOps p a ++ lastReceiveOps p out.base ++ successOps
  | .readMulti a out n =>
    startPhaseOps p ++ addressReadOps p a ++ receiveOps p out.base n ++ successOps
  | .readMultiReg a r out n =>
    registerPreambleOps p a r ++ turnaroundOps p a ++ receiveOps p out.base n ++ successOps

/-! ### Preconditions -/

/-- `address ≤ 0x7F` (R228). -/
def addressOk (a : Nat) : Bool := a ≤ 0x7F

/-- An output buffer of the caller's holds `n` bytes (R228). -/
def outOk (b : Buffer) (n : Nat) : Bool := n ≤ b.size

/-- An input buffer holds `n` bytes: it is large enough, and memory holds every one of them (R228). -/
def bytesOk (m : List Host.Cell) (b : Buffer) (n : Nat) : Bool :=
  n ≤ b.size && (List.range n).all fun i => (memRead m (b.base + i)).isSome

/-- The preconditions on the arguments of a call (R228). -/
def callOk (m : List Host.Cell) : Call → Bool
  | .init => true
  | .probe a => addressOk a
  | .write a _ => addressOk a
  | .writeReg a _ _ => addressOk a
  | .writeMulti a bytes n => addressOk a && bytesOk m bytes n
  | .writeMultiReg a _ bytes n => addressOk a && bytesOk m bytes n
  | .read a out => addressOk a && outOk out 1
  | .readReg a _ out => addressOk a && outOk out 1
  | .readMulti a out n => addressOk a && decide (1 ≤ n) && outOk out n
  | .readMultiReg a _ out n => addressOk a && decide (1 ≤ n) && outOk out n

/-- The operation is the end of a procedure. -/
def HostOp.isRet : HostOp → Bool
  | .ret _ => true
  | .access _ | .poll _ | .check _ _ | .loadData _ | .storeData _ | .call _ _ => false

/-- An operation is still in progress: its end is among the operations to come (R228, R247). -/
def inProgress (ops : List HostOp) : Bool := ops.any HostOp.isRet

/-- What is left after the operation in progress is given up (R240): what comes after its end. With no
operation in progress there is none to give up, and nothing is dropped. DESIGN CHOICE; log entry 18. -/
def dropOperation (ops : List HostOp) : List HostOp :=
  if inProgress ops then (ops.dropWhile fun o => !o.isRet).tail else ops

/-- The abort of the operation in progress (R240): Error, after a stop if `stop`. A check or a bounded poll
that fails outside any operation (a primitive used alone: R133, R225, R227 and R306 say only what it returns
to its caller) records Error too, after a stop if its flag is set, and the HOST goes on with all its later
operations. DESIGN CHOICE; log entry 18. -/
def abortOps (stop : Bool) (ops : List HostOp) : List HostOp :=
  (if stop then stopOps else []) ++ .ret .error :: dropOperation ops

end Sys2Proof.Machine
end

