-- ==== Sys2Proof/Machine/HostAgent.lean ====
section
/-! DEFINITION. The HOST's step (R5), and the machine's step from it and ENGINE's: which agent moves is
BUS's choice (R184, R267). -/

namespace Sys2Proof.Machine

/-- The instruction at the head of the HOST's operations, in the state's phase (R81). -/
def State.fetch (s : State) (w : AccessWord) : Instr := decode s.phase w

/-- A register access of the HOST by its instruction. A write may change the unspecified register
contents; a read does not (R58). -/
def hostAccess (i : Instr) (s : State) : Answered :=
  match i with
  | .rdBaud | .rdStatus | .rdData | .rdCtrl => exec i s
  | .wrBaud _ | .wrStatus _ | .wrData _ | .wrCtrl _ | .enable _ | .disable _ | .start _ | .repStart _
  | .stop _ | .transmitAddr _ | .transmitData _ | .receiveAck | .receiveNack =>
    mapNext State.nextEpoch (exec i s)

/-- The byte the last read returned, for the HOST to act on. -/
def State.lastRead (s : State) : Byte := s.driver.value.getD 0

/-- The operations after one read of the poll (R225): on with the procedure once bit 7 is 1; else the next
read, and where the bound is reached Error at once, without a stop (D42). -/
def afterPoll (left : Option Nat) (v : Byte) (rest : List HostOp) : List HostOp :=
  if v.getLsbD 7 then rest
  else
    match left with
    | none => .poll none :: rest
    | some 0 => abortOps false rest
    | some 1 => abortOps false rest
    | some (n + 2) => .poll (some (n + 1)) :: rest

/-- The operations after a check (R227, R240). -/
def afterCheck (expected : Byte) (stop : Bool) (v : Byte) (rest : List HostOp) : List HostOp :=
  match checkStatus expected v with
  | .success => rest
  | .error => abortOps stop rest

/-- One operation of the HOST; `rest` is what comes after it. A poll whose bound is 0 reads nothing
(R225). The start and the end of a procedure are steps without an access (log entry 12). -/
def hostOp (op : HostOp) (rest : List HostOp) (s : State) : Answered :=
  match op with
  | .access w => mapNext (State.setOps rest) (hostAccess (s.fetch w) s)
  | .poll (some 0) => .next (s.setOps (abortOps false rest))
  | .poll left =>
    mapNext (fun t => t.setOps (afterPoll left t.lastRead rest)) (hostAccess .rdCtrl s)
  | .check expected stop =>
    mapNext (fun t => t.setOps (afterCheck expected stop t.lastRead rest)) (hostAccess .rdStatus s)
  | .loadData a =>
    match memRead s.driver.mem a with
    | some b => mapNext (State.setOps rest) (hostAccess (.wrData b) s)
    | none => refuse .hostPrecondition
  | .storeData a =>
    mapNext (fun t => (t.storeByte a t.lastRead).setOps rest) (hostAccess .rdData s)
  | .call p c =>
    if callOk s.driver.mem c && !inProgress rest then .next (s.setOps (expand p c ++ rest))
    else refuse .hostPrecondition
  | .ret r => .next ((s.addResult r).setOps rest)

/-- The HOST's step: its next operation; nothing where it has none. -/
def hostStep (s : State) : Answered :=
  match s.driver.ops with
  | [] => .next s
  | op :: rest => hostOp op rest s

/-- One step of the machine (R5, R60): a marked state is final (R100); where ENGINE has a step, BUS
chooses whether it happens now (R184); otherwise the HOST moves. -/
def advance (s : State) : Answered :=
  unlessMarked s <|
    if s.engineReady then
      match s.takeBusMove.engineStep s.busMove with
      | some t => .next t.nextEpoch.nextTick
      | none => mapNext State.nextTick (hostStep s.takeBusMove)
    else mapNext State.nextTick (hostStep s)

/-- Place access word `w` where the HOST's next operation is taken. Where ENGINE has a step, BUS's next
choice is to wait, so that the HOST moves first. -/
def State.placeAccess (w : AccessWord) (s : State) : State :=
  let t := s.setOps (.access w :: s.driver.ops)
  if s.engineReady then t.setBus (.wait :: s.bus) else t

end Sys2Proof.Machine
end

