-- ==== Sys2Proof/Machine/Step.lean ====
section
/-! DEFINITION. The machine's step, and the placing of one access for the next step. -/

namespace Sys2Proof.Machine

/-- One step. -/
def step (s : State) : Host.Outcome State Fault Refusal := advance s

/-- `s` with the access word `w` at the head of the HOST's operations. A number with a bit above the 11 of
an access word is no word, and places nothing. -/
def State.withFetchWord (s : State) (_nbits w : Nat) : State :=
  if w < 2 ^ 11 then s.placeAccess (BitVec.ofNat 11 w) else s

end Sys2Proof.Machine
end

