-- ==== Sys2Proof/Safety.lean ====
section
/-! DEFINITION. The terms claims are made in: marks, the invariants of R41, the trace grammar of R201, the
premises of R184 and R185, runs. -/

namespace Sys2Proof.Machine

/-- The state carries no mark (R40, R100). -/
abbrev Unmarked (s : State) : Prop := s.fault = none ∧ s.refused = none

/-- The invariants of R41, in its order. -/
abbrev BlockInv (s : State) : Prop :=
  (s.en = true ↔ s.phase ≠ .off) ∧
  (s.inflight ≠ none → s.int = false ∧ s.sto = false ∧ s.queued = false) ∧
  (s.queued = true → s.sto = true ∧ s.inflight = none ∧ s.int = false) ∧
  (s.sto = true → s.int = false) ∧
  (s.int = true → s.inflight = none ∧ s.phase ≠ .off ∧ s.phase ≠ .idle) ∧
  (s.phase = .off → s.inflight = none ∧ s.sto = false ∧ s.queued = false ∧ s.int = false) ∧
  (s.sto = true → s.phase = .idle)

/-- A command in flight has a non-empty outcome set (R181, R183): BUS has something to choose. -/
abbrev FlightInv (s : State) : Prop := s.inflight ≠ none → s.completionReady = true

/-- In Idle STA is 1 only while a START is queued or in flight (R26, R150, R152). -/
abbrev StaInv (s : State) : Prop := s.phase = .idle → s.sta = true → s.inFlight = true

/-- A CTRL write among the operation is one of the five the source's primitives make (R77); any other access,
and any other operation, is allowed. -/
def HostOp.ofSource : HostOp → Bool
  | .access w => decide (w < 0x700) || [0x704, 0x7A4, 0x794, 0x784, 0x7C4].contains w
  | .poll _ | .check _ _ | .loadData _ | .storeData _ | .call _ _ | .ret _ => true

/-- The HOST writes CTRL as the source's primitives do, and EA is 0 in Off and Idle. -/
abbrev SourceInv (s : State) : Prop :=
  s.driver.ops.all HostOp.ofSource = true ∧ (s.phase = .off ∨ s.phase = .idle → s.ea = false)

/-- Host memory is in its canonical form. -/
abbrev MemInv (s : State) : Prop := Memory.wf s.driver.mem = true

/-! ### The trace grammar (R201) -/

/-- The nonterminals of the grammar, as what may come next: `between` transactions, `addr` (A), `sla` (M),
`dat` (D), `recv` (Q), and `nacked`, where only Stop may come. -/
inductive Expect where
  | between | addr | sla | dat | recv | nacked
  deriving DecidableEq, Repr

/-- One event of the grammar. -/
def Expect.next (x : Expect) (e : BusEvent) : Option Expect :=
  match x, e with
  | .between, .start => some .addr
  | .between, .lost => some .between
  | .between, .busErr => some .between
  | .addr, .byte b .ack => some (if b.getLsbD 0 then .recv else .sla)
  | .addr, .byte _ .nack => some .nacked
  | .addr, .lost => some .between
  | .addr, .busErr => some .between
  | .sla, .byte _ .ack => some .dat
  | .sla, .byte _ .nack => some .nacked
  | .sla, .stop => some .between
  | .sla, .lost => some .between
  | .sla, .busErr => some .between
  | .dat, .byte _ .ack => some .dat
  | .dat, .byte _ .nack => some .nacked
  | .dat, .repStart => some .addr
  | .dat, .stop => some .between
  | .dat, .lost => some .between
  | .dat, .busErr => some .between
  | .recv, .recv _ .ack => some .recv
  | .recv, .recv _ .nack => some .nacked
  | .recv, .lost => some .between
  | .recv, .busErr => some .between
  | .nacked, .stop => some .between
  | _, _ => none

/-- What may come after a trace; none where it does not match the grammar. -/
def expectAfter (trace : List BusEvent) : Option Expect :=
  trace.foldl (fun x e => x.bind fun y => y.next e) (some .between)

/-- The nonterminal of a phase (R201: one per phase the block can be in). -/
def phaseExpect : Phase → Expect
  | .off | .idle | .arbLost | .busError => .between
  | .started | .repStarted => .addr
  | .mtSlaAck => .sla
  | .mtDataAck => .dat
  | .mrSlaAck | .mrDataAck => .recv
  | .mtSlaNack | .mtDataNack | .mrSlaNack | .mrDataNack => .nacked

/-- The trace matches the grammar and stands where the phase says. -/
abbrev TraceInv (s : State) : Prop := expectAfter s.trace = some (phaseExpect s.phase)

/-! ### Runs and premises -/

/-- `n` steps, stopping at the first fault or refusal. -/
def runSteps : Nat → State → Host.Outcome State Fault Refusal
  | 0, s => .next s
  | n + 1, s =>
    match step s with
    | .next t => runSteps n t
    | .fault r => .fault r
    | .refused r => .refused r

/-- The state `t` is reached from `s` in `n` steps. -/
abbrev ReachedIn (n : Nat) (s t : State) : Prop := runSteps n s = .next t

/-- In this state BUS lets an ENGINE step happen now. -/
abbrev EngineMoves (s : State) : Prop :=
  s.engineReady = true ∧ (s.takeBusMove.engineStep s.busMove).isSome = true

/-- From `t` on ENGINE has a step at every later point of the run. The run then goes on without end: a fault
or a refusal is final (R11, R100), and no step is enabled after it. -/
def StaysEnabled (t : State) : Prop :=
  ∀ m, ∃ u, ReachedIn m t u ∧ u.engineReady = true

/-- The premise BusLive (R184) on the run from `s`: an ENGINE step that stays enabled is taken at last. A run
that stops at a fault or a refusal while an ENGINE step waits meets it, since that step does not stay enabled.
DEDUCED from R184 and R11; log entry 14. -/
def BusLive (s : State) : Prop :=
  ∀ n t, ReachedIn n s t → StaysEnabled t → ∃ m u, ReachedIn m t u ∧ EngineMoves u

/-- The slave of the transaction after one more event: an address byte, the first byte after a start or a
repeated start, names it; the end of the transaction forgets it. The Bool says that an address byte is next. -/
def slaveAfter (x : Bool × Option SlaveAddress) (e : BusEvent) : Bool × Option SlaveAddress :=
  match e with
  | .start | .repStart => (true, none)
  | .byte b _ => if x.1 then (false, some (slaAddress b)) else x
  | .recv _ _ => x
  | .stop | .lost | .busErr => (false, none)

/-- The slave addressed in the transaction a trace stands in. -/
def traceSlave (trace : List BusEvent) : Option SlaveAddress := (trace.foldl slaveAfter (false, none)).2

/-- The slave the command in flight speaks to: the one whose address byte it sends, or the one addressed
before; none for a start. -/
def State.addressee (s : State) : Option SlaveAddress :=
  match s.inflight with
  | none | some .start => none
  | some .transmit =>
    if s.phase = .started ∨ s.phase = .repStarted then s.data.map slaAddress else traceSlave s.trace
  | some .recvAck | some .recvNack => traceSlave s.trace

/-- BUS's choice, if it is an answer, is the success member. -/
def responsiveMove : BusMove → Bool
  | .wait | .complete .success _ => true
  | .complete .nack _ | .complete .lost _ | .complete .busErr _ => false

/-- The premise Quiet (R185) on one choice: neither ArbLost nor BusError. -/
def quietMove : BusMove → Bool
  | .complete .lost _ | .complete .busErr _ => false
  | .wait | .complete .success _ | .complete .nack _ => true

/-- The premise NoDevice(a) (R185) on one choice: no Ack for the address byte of `a`. -/
def NoDevice (a : SlaveAddress) (s : State) (m : BusMove) : Prop :=
  ∀ b r, s.inflight = some .transmit → (s.phase = .started ∨ s.phase = .repStarted) →
    s.data = some b → slaAddress b = a → m ≠ .complete .success r

/-- The premise Responsive(a) (R185) on one choice: only the success member, for every byte that goes to or
comes from the slave `a`, and for a start, which speaks to no slave. Another slave's bytes are not
constrained. DEDUCED; log entry 19. -/
def Responsive (a : SlaveAddress) (s : State) (m : BusMove) : Prop :=
  s.inflight = some .start ∨ s.addressee = some a → responsiveMove m = true

/-- A premise on one choice of BUS holds of every choice BUS makes on the run from `s`. -/
def OnRun (P : State → BusMove → Prop) (s : State) : Prop :=
  ∀ n t, ReachedIn n s t → t.engineReady = true → P t t.busMove

/-! ### The clock fields (R32, R36) -/

/-- `t` is `s` but for BAUD, PS and the byte the HOST last read. -/
def SameButClock (s t : State) : Prop :=
  t = { s with baud := t.baud, ps := t.ps, driver := { s.driver with value := t.driver.value } }

/-- Two answers agree but for the clock fields: the same stop, or next states that do. -/
def AgreeButClock : Host.Outcome State Fault Refusal → Host.Outcome State Fault Refusal → Prop
  | .next s, .next t => SameButClock s t
  | .fault q, .fault r => q = r
  | .refused q, .refused r => q = r
  | _, _ => False

end Sys2Proof.Machine
end

