-- ==== Sys2Proof/Certificates/Slice0/Obligations.lean ====
section
/-! DEFINITION. The statements for the provers, each with the rule of spec/ it comes from. Where a rule is
marked in spec/ as a decision D<n> of the spec's own, the docstring says so. `Unmarked s` says that the
state carries no fault and no refusal mark. -/

open Sys2Proof Sys2Proof.Machine

/-! ### Fetch, decode, encode -/

/-- R5, R60: where the HOST's next operation is the access word `w` and BUS lets no ENGINE step happen now,
a step is exec of the instruction `w` decodes to in the state's phase (R81), with what the step adds: the
operation is done, `tick` counts the step, a write advances `epoch`, and BUS's choice is taken from its
script if one was asked for. -/
def Obligations.StepRunsTheFetchedAccess : Prop :=
  ∀ (s : State) (w : AccessWord) (rest : List HostOp),
    Unmarked s → s.driver.ops = .access w :: rest → ¬ EngineMoves s →
    step s =
      match exec (decode s.phase w) (if s.engineReady then { s with bus := s.bus.tail } else s) with
      | .next t =>
        .next { t with
          driver := { t.driver with ops := rest }
          tick := t.tick + 1
          epoch := if w.getLsbD 10 then t.epoch + 1 else t.epoch }
      | .fault r => .fault r
      | .refused r => .refused r

/-- The model's own placing of an access (log entry 4): the next step after it runs exactly that access, on
the state it was placed in; a number wider than an access word places nothing and decodes to nothing. -/
def Obligations.PlacedAccessRunsInTheNextStep : Prop :=
  (∀ (s : State) (nbits w : Nat), Unmarked s → w < 2 ^ 11 →
    step (s.withFetchWord nbits w) =
      match exec (decode s.phase (BitVec.ofNat 11 w)) s with
      | .next t =>
        .next { t with
          tick := t.tick + 1
          epoch := if w.testBit 10 then t.epoch + 1 else t.epoch }
      | .fault r => .fault r
      | .refused r => .refused r) ∧
  (∀ (nbits w : Nat), w < 2 ^ 11 → decodeTableWord nbits w = some (decode .off (BitVec.ofNat 11 w))) ∧
  ∀ (s : State) (nbits w : Nat), 2 ^ 11 ≤ w →
    s.withFetchWord nbits w = s ∧ decodeTableWord nbits w = none

/-- R70, R71, R72, R76 on words of the test vectors (95_test_vectors.md 2.1 and 2.3): a sanity statement. -/
def Obligations.SpecWordsDecodeAsListed : Prop :=
  decodeAccess 0x0FF = .rdBaud ∧ decodeAccess 0x100 = .rdStatus ∧ decodeAccess 0x200 = .rdData ∧
  decodeAccess 0x3A4 = .rdCtrl ∧ decodeAccess 0x420 = .wrBaud 0x20 ∧
  decodeAccess 0x512 = .wrStatus 0x12 ∧ decodeAccess 0x6FF = .wrData 0xFF ∧
  decodeAccess 0x7A4 = .wrCtrl 0xA4 ∧ decode .idle 0x7FF = .wrCtrl 0xFF ∧
  decode .off 0x704 = .enable false ∧ decode .idle 0x744 = .enable true ∧
  decode .idle 0x700 = .disable false ∧ decode .idle 0x7A4 = .start false ∧
  decode .mtDataAck 0x7A4 = .repStart false ∧ decode .mtDataAck 0x794 = .stop false ∧
  decode .started 0x784 = .transmitAddr false ∧ decode .mtSlaAck 0x7C4 = .transmitData true ∧
  decode .mrSlaAck 0x784 = .receiveNack ∧ decode .mrDataAck 0x7C4 = .receiveAck ∧
  decode .idle 0x784 = .wrCtrl 0x84

/-- R70, R72, R76, R81: an instruction's word decodes to that instruction, in exactly the phases the command
table gives it. No operand bit of any instruction is lost. -/
def Obligations.EncodedWordDecodesBackExactlyInItsPhases : Prop :=
  ∀ (p : Phase) (i : Instr), decode p (encode i) = i ↔ readsIn p i = true

/-- R70: the other direction. A write's word is encoded back to itself, in every phase; of a read's word the
ignored VAL comes back as 0, the canonical spelling. -/
def Obligations.DecodedInstructionEncodesToItsWord : Prop :=
  ∀ (p : Phase) (w : AccessWord),
    encode (decode p w) = if w.getLsbD 10 then w else w &&& 0x700

/-- R81, R107: reading a CTRL write as the command row its value selects in the state's phase gives the
meaning of the plain CTRL write, in every state, also where either is refused or faults. -/
def Obligations.CommandRowAndPlainAccessAgree : Prop :=
  ∀ (s : State) (w : AccessWord), exec (decode s.phase w) s = exec (decodeAccess w) s

/-! ### Register reads -/

/-- R103: RD CTRL returns INT, EA, STA, STO, 0, EN, 0, 0 and writes no state. -/
def Obligations.CtrlReadReturnsItsFields : Prop :=
  encode .rdCtrl = 0x300 ∧
  ∀ s : State, Unmarked s →
    ∃ v : Byte,
      exec .rdCtrl s = .next { s with driver := { s.driver with value := some v } } ∧
      v.getLsbD 7 = s.int ∧ v.getLsbD 6 = s.ea ∧ v.getLsbD 5 = s.sta ∧ v.getLsbD 4 = s.sto ∧
      v.getLsbD 3 = false ∧ v.getLsbD 2 = s.en ∧ v.getLsbD 1 = false ∧ v.getLsbD 0 = false

/-- R104 (D18): RD DATA returns DATA; a free byte while a command is in flight or a START is queued; and
faults where DATA holds no value and nothing is in flight. It writes no state. -/
def Obligations.DataReadReturnsDataOrFaults : Prop :=
  encode .rdData = 0x200 ∧
  ∀ s : State, Unmarked s →
    ((s.inflight ≠ none ∨ s.queued = true) →
      exec .rdData s =
        .next { s with driver := { s.driver with value := some (Config.freeDataByte s.epoch) } }) ∧
    (s.inflight = none → s.queued = false →
      (∀ b, s.data = some b →
        exec .rdData s = .next { s with driver := { s.driver with value := some b } }) ∧
      (s.data = none → exec .rdData s = .fault .dataUnwritten))

/-- R105: RD STATUS returns the code of the phase in bits 7:3, a free value there while a command is in
flight, a START is queued or a stop is pending; 0 in bit 2; PS in bits 1:0. It writes no state. -/
def Obligations.StatusReadReturnsCodeAndPrescaler : Prop :=
  encode .rdStatus = 0x100 ∧
  ∀ s : State, Unmarked s →
    ∃ v : Byte,
      exec .rdStatus s = .next { s with driver := { s.driver with value := some v } } ∧
      v.extractLsb' 0 2 = s.ps ∧ v.getLsbD 2 = false ∧
      v.extractLsb' 3 5 =
        if s.inflight ≠ none ∨ s.queued = true ∨ s.sto = true then Config.freeStatusCode s.epoch
        else (phaseCode Config.idleCode s.phase).extractLsb' 3 5

/-- R34, and for Off, Idle and BusError D13 and D14 (log entry 5 for IDLE_CODE): the code byte a STATUS read
shows under the mask 0xF8 when the block is not busy, whatever PS is. -/
def Obligations.StatusReadShowsTheCodeTable : Prop :=
  ∀ s : State, Unmarked s → s.inflight = none → s.queued = false → s.sto = false →
    ∃ v : Byte,
      exec .rdStatus s = .next { s with driver := { s.driver with value := some v } } ∧
      v &&& 0xF8 =
        match s.phase with
        | .off => 0xF8
        | .idle => 0xF8
        | .started => 0x08
        | .repStarted => 0x10
        | .mtSlaAck => 0x18
        | .mtSlaNack => 0x20
        | .mtDataAck => 0x28
        | .mtDataNack => 0x30
        | .arbLost => 0x38
        | .mrSlaAck => 0x40
        | .mrSlaNack => 0x48
        | .mrDataAck => 0x50
        | .mrDataNack => 0x58
        | .busError => 0x00

/-- R106: RD BAUD returns BAUD and writes no state. -/
def Obligations.BaudReadReturnsTheDivisor : Prop :=
  encode .rdBaud = 0x000 ∧
  ∀ s : State, Unmarked s →
    exec .rdBaud s = .next { s with driver := { s.driver with value := some s.baud } }

/-- R58 (D28): a read has no side effect and can be repeated with the same result: the state after it reads
as the same byte again, whichever register, also where the byte is a free value, and nothing but the byte
the HOST holds has changed. -/
def Obligations.ReadsAreRepeatable : Prop :=
  ∀ (s t : State) (i : Instr), i ∈ [Instr.rdBaud, .rdStatus, .rdData, .rdCtrl] →
    exec i s = .next t →
    exec i t = .next t ∧ t = { s with driver := { s.driver with value := t.driver.value } }

/-! ### Register writes -/

/-- R108: WR DATA stores the byte, in every phase and while a stop is pending; it is refused while a command
is in flight or a START is queued. -/
def Obligations.DataWriteStoresTheByte : Prop :=
  ∀ (s : State) (v : Byte), Unmarked s →
    encode (.wrData v) = 0x600 ||| v.setWidth 11 ∧
    (s.inflight = none → s.queued = false →
      exec (.wrData v) s = .next { s with data := some v }) ∧
    ((s.inflight ≠ none ∨ s.queued = true) → exec (.wrData v) s = .refused .writeWhileInFlight)

/-- R109: WR STATUS stores bits 1:0 as PS and nothing else; refused while in flight or with a START queued,
and otherwise while a stop is pending (R101, R102: D19; their priority, R266: D39). -/
def Obligations.StatusWriteStoresThePrescaler : Prop :=
  ∀ (s : State) (v : Byte), Unmarked s →
    encode (.wrStatus v) = 0x500 ||| v.setWidth 11 ∧
    (s.inflight = none → s.queued = false → s.sto = false →
      exec (.wrStatus v) s = .next { s with ps := v.extractLsb' 0 2 }) ∧
    ((s.inflight ≠ none ∨ s.queued = true) → exec (.wrStatus v) s = .refused .writeWhileInFlight) ∧
    (s.inflight = none → s.queued = false → s.sto = true →
      exec (.wrStatus v) s = .refused .configWhileBusy)

/-- R110: WR BAUD stores the divisor, every value of it; refused while in flight or with a START queued, and
otherwise while a stop is pending (R101, R102: D19; their priority, R266: D39). -/
def Obligations.BaudWriteStoresTheDivisor : Prop :=
  ∀ (s : State) (v : Byte), Unmarked s →
    encode (.wrBaud v) = 0x400 ||| v.setWidth 11 ∧
    (s.inflight = none → s.queued = false → s.sto = false →
      exec (.wrBaud v) s = .next { s with baud := v }) ∧
    ((s.inflight ≠ none ∨ s.queued = true) → exec (.wrBaud v) s = .refused .writeWhileInFlight) ∧
    (s.inflight = none → s.queued = false → s.sto = true →
      exec (.wrBaud v) s = .refused .configWhileBusy)

/-- R101, R266 (D19, D39): while a command is in flight or a START is queued, every write is refused with
WriteWhileInFlight, before any other reason, and every read goes on. -/
def Obligations.WritesInFlightAreRefusedFirst : Prop :=
  ∀ (s : State) (i : Instr), Unmarked s → (s.inflight ≠ none ∨ s.queued = true) →
    (i ∉ [Instr.rdBaud, .rdStatus, .rdData, .rdCtrl] → exec i s = .refused .writeWhileInFlight) ∧
    (i ∈ [Instr.rdBaud, .rdStatus, .rdData, .rdCtrl] → ∃ t, exec i s = .next t)

/-! ### The CTRL write -/

/-- R75 (D4, D7, D8, D10): the value checks in their order, and only they give the four reasons. -/
def Obligations.ControlValueChecksComeInOrder : Prop :=
  ∀ (s : State) (v : Byte), Unmarked s → s.inflight = none → s.queued = false →
    if v.getLsbD 3 = true ∨ v.getLsbD 1 = true ∨ v.getLsbD 0 = true then
      exec (.wrCtrl v) s = .refused .reservedBit
    else if v.getLsbD 7 = false ∧ (v.getLsbD 5 = true ∨ v.getLsbD 4 = true) then
      exec (.wrCtrl v) s = .refused .requestWithoutTrigger
    else if v.getLsbD 7 = true ∧ v.getLsbD 2 = false then
      exec (.wrCtrl v) s = .refused .triggerWhileDisabled
    else if v.getLsbD 7 = true ∧ v.getLsbD 5 = true ∧ v.getLsbD 4 = true then
      exec (.wrCtrl v) s = .refused .startAndStop
    else
      ∀ r ∈ [Refusal.reservedBit, .requestWithoutTrigger, .triggerWhileDisabled, .startAndStop],
        exec (.wrCtrl v) s ≠ .refused r

/-- R76 (D11): the command a CTRL value selects, by its bits and the phase: the plain CTRL write is that
command's row; where no command is selected it is refused with NotAdmitted. -/
def Obligations.ControlWriteSelectsByValueAndPhase : Prop :=
  ∀ (s : State) (v : Byte),
    v.getLsbD 3 = false → v.getLsbD 1 = false → v.getLsbD 0 = false →
    (v.getLsbD 7 = false → v.getLsbD 5 = false → v.getLsbD 4 = false → v.getLsbD 2 = true →
      exec (.wrCtrl v) s = exec (.enable (v.getLsbD 6)) s) ∧
    (v.getLsbD 7 = false → v.getLsbD 5 = false → v.getLsbD 4 = false → v.getLsbD 2 = false →
      exec (.wrCtrl v) s = exec (.disable (v.getLsbD 6)) s) ∧
    (v.getLsbD 7 = true → v.getLsbD 5 = true → v.getLsbD 4 = false → v.getLsbD 2 = true →
      exec (.wrCtrl v) s =
        if s.phase = .mtDataAck then exec (.repStart (v.getLsbD 6)) s
        else exec (.start (v.getLsbD 6)) s) ∧
    (v.getLsbD 7 = true → v.getLsbD 5 = false → v.getLsbD 4 = true → v.getLsbD 2 = true →
      exec (.wrCtrl v) s = exec (.stop (v.getLsbD 6)) s) ∧
    (v.getLsbD 7 = true → v.getLsbD 5 = false → v.getLsbD 4 = false → v.getLsbD 2 = true →
      (s.phase ∈ [Phase.started, .repStarted] →
        exec (.wrCtrl v) s = exec (.transmitAddr (v.getLsbD 6)) s) ∧
      (s.phase ∈ [Phase.mtSlaAck, .mtDataAck] →
        exec (.wrCtrl v) s = exec (.transmitData (v.getLsbD 6)) s) ∧
      (s.phase ∈ [Phase.mrSlaAck, .mrDataAck] →
        exec (.wrCtrl v) s =
          if v.getLsbD 6 = true then exec .receiveAck s else exec .receiveNack s) ∧
      (s.phase ∉ [Phase.started, .repStarted, .mtSlaAck, .mtDataAck, .mrSlaAck, .mrDataAck] →
        Unmarked s → s.inflight = none → s.queued = false →
        exec (.wrCtrl v) s = .refused .notAdmitted))

/-- R107: WR CTRL answers a next state for each of the shapes 0x04, 0x00, 0xA4, 0x94 and 0x84, with EA, where
the spec admits the command it selects; the state written is the command's. A transmit's DATA holds a byte
(with none it faults, TransmitsNeedData). The clause of the STOP value in Idle,
with and without a stop pending, sets EA to the bit written: the model's choice of R107 over R59, R249 and R152's
corner case (log entry 20). -/
def Obligations.ControlWriteCompletes : Prop :=
  ∀ (s : State) (ea : Bool), Unmarked s → s.inflight = none → s.queued = false →
    exec (.wrCtrl (if ea then 0x44 else 0x04)) s =
      .next { s with ea := ea, sta := false, en := true,
                     phase := if s.phase = .off then .idle else s.phase } ∧
    (s.phase = .off ∨ (s.phase = .idle ∧ s.sto = false) →
      exec (.wrCtrl (if ea then 0x40 else 0x00)) s =
        .next { s with ea := ea, sta := false, en := false, phase := .off }) ∧
    (s.phase ∈ [Phase.idle, .arbLost] → s.sto = false →
      exec (.wrCtrl (if ea then 0xE4 else 0xA4)) s =
        .next { s with int := false, ea := ea, sta := true, en := true, inflight := some .start }) ∧
    (s.phase = .idle → s.sto = true →
      exec (.wrCtrl (if ea then 0xE4 else 0xA4)) s =
        .next { s with int := false, ea := ea, sta := true, en := true, queued := true }) ∧
    (s.phase = .mtDataAck →
      exec (.wrCtrl (if ea then 0xE4 else 0xA4)) s =
        .next { s with int := false, ea := ea, sta := true, en := true, inflight := some .start }) ∧
    (s.phase ∈ [Phase.idle, .arbLost, .busError] →
      exec (.wrCtrl (if ea then 0xD4 else 0x94)) s =
        .next { s with int := false, ea := ea, sta := false, sto := true, en := true, phase := .idle }) ∧
    (s.phase ∈ [Phase.mtSlaAck, .mtSlaNack, .mtDataAck, .mtDataNack, .mrSlaNack, .mrDataNack] →
      exec (.wrCtrl (if ea then 0xD4 else 0x94)) s =
        .next { s with int := false, ea := ea, sta := false, sto := true, en := true, phase := .idle,
                       trace := s.trace ++ [.stop] }) ∧
    (s.phase ∈ [Phase.started, .repStarted, .mtSlaAck, .mtDataAck] → s.data ≠ none →
      exec (.wrCtrl (if ea then 0xC4 else 0x84)) s =
        .next { s with int := false, ea := ea, sta := false, en := true, inflight := some .transmit }) ∧
    (s.phase ∈ [Phase.mrSlaAck, .mrDataAck] →
      exec (.wrCtrl (if ea then 0xC4 else 0x84)) s =
        .next { s with int := false, ea := ea, sta := false, en := true,
                       inflight := some (if ea then .recvAck else .recvNack) })

/-- R107, R24, R26, R27, R28: every admitted triggering write clears INT, takes EA and STA from the value, sets
EN, and sets STO only for STOP (a pending stop is not cancelled); a write that does not trigger leaves INT
and STO as they were, takes EA and EN from the value and clears STA. That this holds of EA for
a STOP in Idle too is the model's choice of R107 over R59, R249 and R152's corner case (log entry 20). -/
def Obligations.ControlWriteSetsItsBits : Prop :=
  ∀ (s t : State) (v : Byte), exec (.wrCtrl v) s = .next t →
    t.ea = v.getLsbD 6 ∧ t.sta = v.getLsbD 5 ∧ t.en = v.getLsbD 2 ∧
    t.sto = (s.sto || v.getLsbD 4) ∧
    t.int = (s.int && !v.getLsbD 7)

/-! ### The commands at their write -/

/-- R150 (D11, D15): START in Idle or ArbLost is in flight at once, or queued behind a pending stop. -/
def Obligations.StartBeginsOrQueues : Prop :=
  ∀ (s : State) (ea : Bool), Unmarked s → s.inflight = none → s.queued = false →
    (s.phase = .idle ∨ s.phase = .arbLost) →
    exec (.start ea) s =
      .next (if s.sto = true
        then { s with int := false, ea := ea, sta := true, en := true, queued := true }
        else { s with int := false, ea := ea, sta := true, en := true, inflight := some .start })

/-- R151 (D11): REP_START in MtDataAck puts a start in flight. -/
def Obligations.RepeatedStartBegins : Prop :=
  ∀ (s : State) (ea : Bool), Unmarked s → s.inflight = none → s.queued = false →
    s.phase = .mtDataAck →
    exec (.repStart ea) s =
      .next { s with int := false, ea := ea, sta := true, en := true, inflight := some .start }

/-- R152 (D15, D20): STOP moves the phase to Idle at once and makes the stop pending; the `Stop` event is
emitted exactly where the block owns the bus. That EA is taken from the value also in Idle and while a
stop is pending is the model's choice of R107 over R59, R249 and R152's corner case (log entry 20). -/
def Obligations.StopReleasesTheBus : Prop :=
  ∀ (s : State) (ea : Bool), Unmarked s → s.inflight = none → s.queued = false →
    (s.phase ∈ [Phase.idle, .arbLost, .busError] →
      exec (.stop ea) s =
        .next { s with int := false, ea := ea, sta := false, sto := true, en := true, phase := .idle }) ∧
    (s.phase ∈ [Phase.mtSlaAck, .mtSlaNack, .mtDataAck, .mtDataNack, .mrSlaNack, .mrDataNack] →
      exec (.stop ea) s =
        .next { s with int := false, ea := ea, sta := false, sto := true, en := true, phase := .idle,
                       trace := s.trace ++ [.stop] })

/-- R249, R59, R180 (D15): a STOP in Idle, in either form and also while a stop is pending, goes on and changes
nothing but STO and EA; ENGINE's stop step then clears STO. Where the value's EA is the EA held, STO alone
changes: nothing at all if a stop is pending, and without one the stop step gives back the state before. So it
is for the `stop()` of a HOST that writes CTRL as the source's primitives do. Where the value's EA is another, EA
takes it, the model's choice of R107 over R59 and R249 (log entry 20). The invariants are R41's and those of
EveryStepKeepsStaForAStartInIdle and EveryStepKeepsEaClearForTheSourcesHost. -/
def Obligations.StopInIdleChangesOnlyStoAndEa : Prop :=
  ∀ (s : State) (ea : Bool) (a : Answer) (r : Byte),
    Unmarked s → s.inflight = none → s.queued = false → s.phase = .idle → BlockInv s → StaInv s →
    exec (.stop ea) s = .next { s with sto := true, ea := ea } ∧
    exec (.wrCtrl (if ea then 0xD4 else 0x94)) s = .next { s with sto := true, ea := ea } ∧
    State.engineStep (.complete a r) { s with sto := true, ea := ea } = some { s with sto := false, ea := ea } ∧
    (s.ea = ea → s.sto = true → exec (.stop ea) s = .next s) ∧
    (s.ea = ea → s.sto = false → State.engineStep (.complete a r) { s with sto := true, ea := ea } = some s) ∧
    (SourceInv s → exec (.wrCtrl 0x94) s = .next { s with sto := true } ∧
      State.engineStep (.complete a r) { s with sto := true } = some { s with sto := false })

/-- R160, R161 (D11, D18): a transmit reads DATA at the write: with a byte there it is in flight, with none it
faults. TRANSMIT_ADDR after a start, TRANSMIT_DATA after an acknowledged byte of a write. -/
def Obligations.TransmitsNeedData : Prop :=
  ∀ (s : State) (ea : Bool), Unmarked s → s.inflight = none → s.queued = false →
    (s.phase ∈ [Phase.started, .repStarted] →
      (s.data ≠ none → exec (.transmitAddr ea) s =
        .next { s with int := false, ea := ea, sta := false, en := true, inflight := some .transmit }) ∧
      (s.data = none → exec (.transmitAddr ea) s = .fault .dataUnwritten)) ∧
    (s.phase ∈ [Phase.mtSlaAck, .mtDataAck] →
      (s.data ≠ none → exec (.transmitData ea) s =
        .next { s with int := false, ea := ea, sta := false, en := true, inflight := some .transmit }) ∧
      (s.data = none → exec (.transmitData ea) s = .fault .dataUnwritten))

/-- R162, R163, R25 (D11): a receive is in flight with the acknowledge the trigger's EA chose. -/
def Obligations.ReceivesBeginWithTheirAcknowledge : Prop :=
  ∀ s : State, Unmarked s → s.inflight = none → s.queued = false →
    s.phase ∈ [Phase.mrSlaAck, .mrDataAck] →
    exec .receiveAck s =
      .next { s with int := false, ea := true, sta := false, en := true, inflight := some .recvAck } ∧
    exec .receiveNack s =
      .next { s with int := false, ea := false, sta := false, en := true, inflight := some .recvNack }

/-- R170: ENABLE sets EN and EA, clears STA, leaves INT and STO, and moves Off to Idle, any other phase
staying. -/
def Obligations.EnableSetsTheEnableBit : Prop :=
  (∀ ea, encode (.enable ea) = if ea then 0x744 else 0x704) ∧
  ∀ (s : State) (ea : Bool), Unmarked s →
    (s.inflight = none → s.queued = false →
      exec (.enable ea) s =
        .next { s with ea := ea, sta := false, en := true,
                       phase := if s.phase = .off then .idle else s.phase }) ∧
    ((s.inflight ≠ none ∨ s.queued = true) → exec (.enable ea) s = .refused .writeWhileInFlight)

/-- R171 (D9): DISABLE in Off, or in Idle when no stop is pending, goes to Off and keeps DATA, BAUD and PS;
elsewhere it is refused with DisableWhileActive. -/
def Obligations.DisableOnlyWhenIdle : Prop :=
  ∀ (s : State) (ea : Bool), Unmarked s → s.inflight = none → s.queued = false →
    ((s.phase = .off ∨ (s.phase = .idle ∧ s.sto = false)) →
      exec (.disable ea) s = .next { s with ea := ea, sta := false, en := false, phase := .off }) ∧
    (¬ (s.phase = .off ∨ (s.phase = .idle ∧ s.sto = false)) →
      exec (.disable ea) s = .refused .disableWhileActive)

/-- R165 (D11): the admission table, a column a command: refused with NotAdmitted in exactly the phases the
table leaves blank. -/
def Obligations.AdmissionFollowsTheTable : Prop :=
  ∀ (s : State) (ea : Bool), Unmarked s → s.inflight = none → s.queued = false →
    (exec (.start ea) s = .refused .notAdmitted ↔ s.phase ∉ [Phase.idle, .arbLost]) ∧
    (exec (.repStart ea) s = .refused .notAdmitted ↔ s.phase ≠ .mtDataAck) ∧
    (exec (.stop ea) s = .refused .notAdmitted ↔
      s.phase ∈ [Phase.off, .started, .repStarted, .mrSlaAck, .mrDataAck]) ∧
    (exec (.transmitAddr ea) s = .refused .notAdmitted ↔ s.phase ∉ [Phase.started, .repStarted]) ∧
    (exec (.transmitData ea) s = .refused .notAdmitted ↔ s.phase ∉ [Phase.mtSlaAck, .mtDataAck]) ∧
    (exec .receiveAck s = .refused .notAdmitted ↔ s.phase ∉ [Phase.mrSlaAck, .mrDataAck]) ∧
    (exec .receiveNack s = .refused .notAdmitted ↔ s.phase ∉ [Phase.mrSlaAck, .mrDataAck])

/-! ### Frames -/

/-- R59, R52: what every access leaves unchanged when it answers a next state. A read changes only the byte
the HOST holds; WR DATA only DATA, WR STATUS only PS, WR BAUD only BAUD; a CTRL write, in any of its forms,
only the phase, the CTRL bits, the in-flight marks and the trace. No access touches a byte of host memory,
the HOST's operations and results, BUS's script, the counters or the marks. -/
def Obligations.AccessesChangeOnlyWhatTheyWrite : Prop :=
  ∀ (s t : State) (i : Instr), exec i s = .next t →
    (∀ a, memRead t.driver.mem a = memRead s.driver.mem a) ∧
    t.driver.ops = s.driver.ops ∧ t.driver.results = s.driver.results ∧
    t.bus = s.bus ∧ t.tick = s.tick ∧ t.epoch = s.epoch ∧ t.fault = s.fault ∧ t.refused = s.refused ∧
    match i with
    | .rdBaud | .rdStatus | .rdData | .rdCtrl =>
      t = { s with driver := { s.driver with value := t.driver.value } }
    | .wrBaud _ => t = { s with baud := t.baud }
    | .wrStatus _ => t = { s with ps := t.ps }
    | .wrData _ => t = { s with data := t.data }
    | .wrCtrl _ | .enable _ | .disable _ | .start _ | .repStart _ | .stop _ | .transmitAddr _
    | .transmitData _ | .receiveAck | .receiveNack =>
      t = { s with
        phase := t.phase, int := t.int, ea := t.ea, sta := t.sta, sto := t.sto, en := t.en,
        inflight := t.inflight, queued := t.queued, trace := t.trace }

/-- R200, R152, R181: an access changes the trace only if it is a STOP, as the command row or as a CTRL write
with bit 4 set, in a phase in which the block owns the bus; it then appends one `Stop`. -/
def Obligations.OnlyStopEmitsAtItsWrite : Prop :=
  ∀ (s t : State) (i : Instr), exec i s = .next t →
    t.trace = s.trace ∨
      (((∃ ea, i = .stop ea) ∨ ∃ v : Byte, i = .wrCtrl v ∧ v.getLsbD 4 = true) ∧
        owner s.phase = true ∧ t.trace = s.trace ++ [.stop] ∧ t.phase = .idle ∧ t.sto = true)

/-- R226, R52: the HOST's MemWrite after a receive changes exactly one byte of its memory, to the byte the
DATA read returned. -/
def Obligations.StoringAReceivedByteChangesOneByte : Prop :=
  ∀ (s : State) (a : Nat) (b : Byte) (rest : List HostOp),
    Unmarked s → s.driver.ops = .storeData a :: rest → s.inflight = none → s.queued = false →
    s.data = some b → ¬ EngineMoves s →
    ∃ t, step s = .next t ∧ t.driver.ops = rest ∧ memRead t.driver.mem a = some b ∧
      ∀ c, c ≠ a → memRead t.driver.mem c = memRead s.driver.mem c

/-! ### ENGINE -/

/-- R180 (D15): the stop step clears STO; a queued START is in flight from then on. INT is not set, nothing is
emitted, nothing else of the block changes. -/
def Obligations.StopStepClearsThePendingStop : Prop :=
  ∀ (s : State) (a : Answer) (r : Byte) (script : List BusMove),
    Unmarked s → s.sto = true → s.bus = .complete a r :: script →
    step s = .next { s with
      sto := false
      queued := false
      inflight := if s.queued = true then some .start else s.inflight
      bus := script
      tick := s.tick + 1
      epoch := s.epoch + 1 }

/-- R181 (D32): a completion writes the phase, DATA, the trace, INT and the in-flight mark, in one step, with
the member of the outcome set BUS chose; EA, STA, STO, EN, PS and BAUD are unchanged. -/
def Obligations.CompletionMakesItsFiveWrites : Prop :=
  ∀ (s : State) (c : Cmd) (a : Answer) (r : Byte) (o : Completion) (script : List BusMove),
    Unmarked s → s.sto = false → s.inflight = some c → s.bus = .complete a r :: script →
    outcome Config.envBusError c s.phase s.data a r = some o →
    step s = .next { s with
      phase := o.phase
      data := o.data
      trace := s.trace ++ [o.event]
      int := true
      inflight := none
      bus := script
      tick := s.tick + 1
      epoch := s.epoch + 1 }

/-- R183 (D12, D13, D18): the outcome sets, row by row, as what each answer of BUS names; an answer that is no
member names nothing, and BusError is a member only with ENV_BUS_ERROR. -/
def Obligations.OutcomesFollowTheTable : Prop :=
  ∀ (e : Bool) (p : Phase) (d : Option Byte) (b r : Byte),
    (p ∈ [Phase.idle, .arbLost, .mtDataAck] →
      outcome e .start p d .success r =
        (if p = .mtDataAck then some ⟨.repStarted, .repStart, d⟩ else some ⟨.started, .start, d⟩) ∧
      outcome e .start p d .nack r = none ∧
      outcome e .start p d .lost r = some ⟨.arbLost, .lost, d⟩ ∧
      outcome e .start p d .busErr r = (if e = true then some ⟨.busError, .busErr, d⟩ else none)) ∧
    (p ∈ [Phase.started, .repStarted] →
      outcome e .transmit p (some b) .success r =
        some ⟨if b.getLsbD 0 = true then .mrSlaAck else .mtSlaAck, .byte b .ack, none⟩ ∧
      outcome e .transmit p (some b) .nack r =
        some ⟨if b.getLsbD 0 = true then .mrSlaNack else .mtSlaNack, .byte b .nack, none⟩) ∧
    (p ∈ [Phase.mtSlaAck, .mtDataAck] →
      outcome e .transmit p (some b) .success r = some ⟨.mtDataAck, .byte b .ack, none⟩ ∧
      outcome e .transmit p (some b) .nack r = some ⟨.mtDataNack, .byte b .nack, none⟩) ∧
    (p ∈ [Phase.started, .repStarted, .mtSlaAck, .mtDataAck] →
      outcome e .transmit p (some b) .lost r = some ⟨.arbLost, .lost, none⟩ ∧
      outcome e .transmit p (some b) .busErr r =
        (if e = true then some ⟨.busError, .busErr, none⟩ else none)) ∧
    (p ∈ [Phase.mrSlaAck, .mrDataAck] →
      outcome e .recvAck p d .success r = some ⟨.mrDataAck, .recv r .ack, some r⟩ ∧
      outcome e .recvNack p d .success r = some ⟨.mrDataNack, .recv r .nack, some r⟩ ∧
      ∀ c ∈ [Cmd.recvAck, .recvNack],
        outcome e c p d .nack r = none ∧
        outcome e c p d .lost r = some ⟨.arbLost, .lost, some r⟩ ∧
        outcome e c p d .busErr r = (if e = true then some ⟨.busError, .busErr, some r⟩ else none))

/-- R182: ENGINE has no other step. Where nothing is in flight and no stop is pending no choice of BUS makes
one; one that happens is a pending stop's, which leaves INT and the phase, or the completion of the command
in flight, which sets INT; none leaves a command in flight but the START that was queued. -/
def Obligations.EngineHasNoOtherStep : Prop :=
  ∀ (s t : State) (m : BusMove), s.engineStep m = some t →
    (s.sto = true ∧ t.sto = false ∧ t.int = s.int ∧ t.phase = s.phase ∧ t.data = s.data ∧
      t.trace = s.trace ∧ t.queued = false ∧
      t.inflight = if s.queued = true then some .start else s.inflight) ∨
    (s.sto = false ∧ s.inflight ≠ none ∧ t.inflight = none ∧ t.int = true ∧ t.sto = false ∧
      ∃ e, t.trace = s.trace ++ [e])

/-- R61, R182: once INT is 1 the phase, DATA and the STATUS byte stay, and INT stays, until the HOST writes a
register: every step that is not a write leaves them. -/
def Obligations.CompletedResultStaysUntilAWrite : Prop :=
  ∀ (s t : State), BlockInv s → s.int = true → step s = .next t →
    (∀ w rest, s.driver.ops = .access w :: rest → w.getLsbD 10 = false) →
    (∀ a rest, s.driver.ops ≠ .loadData a :: rest) →
    t.int = true ∧ t.phase = s.phase ∧ t.data = s.data ∧ t.statusByte = s.statusByte ∧
      t.trace = s.trace ∧ t.inflight = none

/-- R134: a phase succeeded if and only if STATUS then holds the expected code: after the completion of a
command by BUS's answer, the STATUS byte's code is the expected one exactly where the answer is the row's
success. The command is named by the row of R183 it is completed in. -/
def Obligations.CheckSucceedsExactlyOnSuccess : Prop :=
  ∀ (s : State) (c : Cmd) (k : Command) (a : Answer) (r : Byte) (o : Completion),
    s.inflight = some c → s.queued = false → s.sto = false →
    ((c = .start ∧ k = (if s.phase = .mtDataAck then .repStart else .start)) ∨
     (c = .transmit ∧ k = (if s.phase = .started ∨ s.phase = .repStarted then .transmitAddr
       else .transmitData)) ∨
     (c = .recvAck ∧ k = .receiveAck) ∨ (c = .recvNack ∧ k = .receiveNack)) →
    s.outcome c a r = some o →
    ∃ code, expectedCode k (s.data.any fun b => b.getLsbD 0) = some code ∧
      (checkStatus code (s.complete o).statusByte = .success ↔ a = .success)

/-! ### Whole-machine rules -/

/-- R41: the seven invariants are kept by every step, whichever agent takes it. They are the spec's own
inference from its rules. -/
def Obligations.EveryStepKeepsTheBlockInvariants : Prop :=
  ∀ s t : State, BlockInv s → step s = .next t → BlockInv t

/-- R181, R183: with the invariants of R41, every step keeps that a command in flight has an outcome BUS can
choose: the machine never waits for a completion that no answer gives. -/
def Obligations.EveryStepKeepsFlightsCompletable : Prop :=
  ∀ s t : State, BlockInv s → FlightInv s → step s = .next t → FlightInv t

/-- R26, R150, R152: every step keeps that in Idle STA is 1 only while a START is queued or in flight. It is
the model's inference from those rules, and a premise of StopInIdleChangesOnlyStoAndEa. -/
def Obligations.EveryStepKeepsStaForAStartInIdle : Prop :=
  ∀ s t : State, StaInv s → step s = .next t → StaInv t

/-- R77, R107: as long as the HOST writes CTRL with the five values of the source's primitives, the calls of its
operations included, EA is 0 in Off and Idle: every step keeps it. It is the model's inference, and a premise of
StopInIdleChangesOnlyStoAndEa. -/
def Obligations.EveryStepKeepsEaClearForTheSourcesHost : Prop :=
  ∀ s t : State, SourceInv s → step s = .next t → SourceInv t

/-- R201: every trace the steps produce matches the grammar, and stands at the nonterminal of the phase. The
grammar is the spec's own inference from its rules. -/
def Obligations.EveryStepKeepsTheTraceGrammar : Prop :=
  ∀ s t : State, TraceInv s → step s = .next t → TraceInv t

/-- The model's own rule: every step keeps host memory in its canonical form. -/
def Obligations.EveryStepKeepsMemoryCanonical : Prop :=
  ∀ s t : State, MemInv s → step s = .next t → MemInv t

/-- R39, R200: a step never takes an event back, and adds at most one. -/
def Obligations.TheTraceOnlyGrows : Prop :=
  ∀ s t : State, step s = .next t → ∃ l : List BusEvent, t.trace = s.trace ++ l ∧ l.length ≤ 1

/-- R42, R290 (D21): the state after reset, what its registers read as, and that it meets the invariants. -/
def Obligations.ResetLeavesTheBlockOff : Prop :=
  State.reset.phase = .off ∧ State.reset.ctrlByte = 0x00 ∧ State.reset.statusByte = 0xF8 ∧
  State.reset.ps = 0 ∧ State.reset.baud = 0x00 ∧ State.reset.data = none ∧
  State.reset.inflight = none ∧ State.reset.queued = false ∧ State.reset.trace = [] ∧
  Unmarked State.reset ∧
  BlockInv State.reset ∧ FlightInv State.reset ∧ StaInv State.reset ∧ SourceInv State.reset ∧
  TraceInv State.reset ∧ MemInv State.reset

/-- R267 (D40): under the invariants of R41 at most one ENGINE step is enabled. -/
def Obligations.AtMostOneEngineStepIsEnabled : Prop :=
  ∀ s : State, BlockInv s → ¬ (s.stopReady = true ∧ s.completionReady = true)

/-- R11, R40, R100 (D11): a marked state is final. No access and no step answers a next state, and the state
with its marks stays as it is. -/
def Obligations.MarkedStatesAreFinal : Prop :=
  ∀ s : State, ¬ Unmarked s →
    (∀ i : Instr, (∀ t, exec i s ≠ .next t) ∧ settle s (exec i s) = s) ∧
    (∀ t, step s ≠ .next t) ∧ settle s (step s) = s

/-- R32, R36 (D35): no functional rule reads BAUD or PS. Two states that differ only in them, and in the byte
the HOST last read, take the same step: both stop for the same reason, or both go on to states that differ
only so. -/
def Obligations.ClockFieldsInfluenceNothing : Prop :=
  ∀ s t : State, SameButClock s t → AgreeButClock (step s) (step t)

/-- R172 (D9, D33): in Off the block takes no part in the bus: ENGINE has no step, no step emits an event, and
every triggered command is refused. -/
def Obligations.OffTakesNoPartInTheBus : Prop :=
  ∀ s : State, BlockInv s → s.phase = .off →
    s.engineReady = false ∧ (∀ t, step s = .next t → t.trace = s.trace) ∧
    (Unmarked s → ∀ ea : Bool, ∀ i ∈ [Instr.start ea, .repStart ea, .stop ea, .transmitAddr ea,
      .transmitData ea, .receiveAck, .receiveNack], exec i s = .refused .notAdmitted)

/-! ### The status decoder and the operands -/

/-- R130, R131: the decoder masks to bits 7:3 and has one case per row of the code table; every other masked
value is unrecognized, with that value. -/
def Obligations.StatusDecoderMasksAndNames : Prop :=
  ∀ v : Byte,
    statusCode v = v &&& 0xF8 ∧ decodeStatus v = decodeStatus (statusCode v) ∧
    (statusCode v = 0x08 ↔ decodeStatus v = .start) ∧
    (statusCode v = 0x10 ↔ decodeStatus v = .repStart) ∧
    (statusCode v = 0x18 ↔ decodeStatus v = .slaWAck) ∧
    (statusCode v = 0x20 ↔ decodeStatus v = .slaWNack) ∧
    (statusCode v = 0x28 ↔ decodeStatus v = .dataTxAck) ∧
    (statusCode v = 0x30 ↔ decodeStatus v = .dataTxNack) ∧
    (statusCode v = 0x38 ↔ decodeStatus v = .arbLost) ∧
    (statusCode v = 0x40 ↔ decodeStatus v = .slaRAck) ∧
    (statusCode v = 0x48 ↔ decodeStatus v = .slaRNack) ∧
    (statusCode v = 0x50 ↔ decodeStatus v = .dataRxAck) ∧
    (statusCode v = 0x58 ↔ decodeStatus v = .dataRxNack) ∧
    (statusCode v ∉ [0x08, 0x10, 0x18, 0x20, 0x28, 0x30, 0x38, 0x40, 0x48, 0x50, 0x58] →
      decodeStatus v = .unrecognized (statusCode v))

/-- R78: the address byte is the address shifted left by one with the direction appended; the block's view of
it gives both back. -/
def Obligations.AddressByteIsAddressThenDirection : Prop :=
  ∀ (a : SlaveAddress) (d : BitVec 1),
    slaByte a d = (a.setWidth 8 <<< 1 ||| d.setWidth 8) ∧
    slaAddress (slaByte a d) = a ∧ slaIsRead (slaByte a d) = d.getLsbD 0 ∧
    slaW a = slaByte a 0 ∧ slaR a = slaByte a 1

/-! ### The HOST's procedures -/

/-- R228, R265 (D26), for each of the ten operations: a call that meets its preconditions, with no other
operation in progress, begins: the HOST's operations are then the procedure's, and no event and no register
access has happened. A call that breaks one, or comes while another operation is in progress, is refused with
HostPrecondition. That a buffer to be sent holds every byte in host memory is log entry 11. -/
def Obligations.CallsAreCheckedBeforeTheirFirstAccess : Prop :=
  ∀ (s : State) (p : HostParams) (c : Call) (rest : List HostOp),
    Unmarked s → ¬ EngineMoves s → s.driver.ops = .call p c :: rest →
    (inProgress rest = true → step s = .refused .hostPrecondition) ∧
    (inProgress rest = false →
      let meets : Prop :=
        match c with
        | .init => True
        | .probe a | .write a _ | .writeReg a _ _ => a ≤ 0x7F
        | .writeMulti a bytes n | .writeMultiReg a _ bytes n =>
          a ≤ 0x7F ∧ n ≤ bytes.size ∧ ∀ i, i < n → memRead s.driver.mem (bytes.base + i) ≠ none
        | .read a out | .readReg a _ out => a ≤ 0x7F ∧ 1 ≤ out.size
        | .readMulti a out n | .readMultiReg a _ out n => a ≤ 0x7F ∧ 1 ≤ n ∧ n ≤ out.size
      (meets →
        step s = .next { s with
          driver := { s.driver with ops := expand p c ++ rest }
          bus := if s.engineReady = true then s.bus.tail else s.bus
          tick := s.tick + 1 }) ∧
      (¬ meets → step s = .refused .hostPrecondition))

/-- R245, R237, R301: in a multi-byte read of n bytes the receives are triggered with ACK for every byte but
the last and with NACK for the last, and the bytes go to the buffer in increasing index order. -/
def Obligations.MultiByteReadAcknowledgesAllButTheLast : Prop :=
  ∀ (p : HostParams) (base n : Nat),
    ((receiveOps p base (n + 1)).filter fun o => o == .access 0x7C4 || o == .access 0x784) =
      List.replicate n (.access 0x7C4) ++ [.access 0x784] ∧
    ((receiveOps p base (n + 1)).filterMap fun o =>
      match o with
      | .storeData a => some a
      | _ => none) = (List.range (n + 1)).map fun i => base + i

/-- R240, R227: a failing check gives the operation up at once: Error, after a STOP where the check's policy
says so, and nothing of the operation's later accesses remains; a check that succeeds goes on. The check is
made with no command in flight and no stop pending, as the procedures make it (R298). -/
def Obligations.FailedCheckEndsTheOperation : Prop :=
  ∀ (s : State) (code : Byte) (stop : Bool) (body later : List HostOp) (r : Result),
    Unmarked s → s.inflight = none → s.queued = false → s.sto = false →
    s.driver.ops = .check code stop :: (body ++ .ret r :: later) → inProgress body = false →
    ∃ t, step s = .next t ∧
      t.driver.ops =
        (if s.statusByte &&& 0xF8 = code then body ++ .ret r :: later
         else if stop = true then .access 0x794 :: .ret .error :: later
         else .ret .error :: later)

/-- R184, R225: under the premise BusLive the completion poll ends: for every command that triggered (in
flight, or a START queued behind a stop), the HOST that polls comes to its next operation, and INT is then
1 and the block has completed the command. -/
def Obligations.PollEndsUnderBusLive : Prop :=
  ∀ (s : State) (rest : List HostOp),
    Unmarked s → BlockInv s → FlightInv s → s.inFlight = true →
    s.driver.ops = .poll none :: rest → BusLive s →
    ∃ n t, ReachedIn n s t ∧ t.driver.ops = rest ∧ t.int = true ∧ t.inFlight = false

/-- R296: a poll after STOP never ends, for every choice of BUS: STOP sets no INT, so as long as nothing is
queued or in flight every later state is still polling. -/
def Obligations.PollAfterStopNeverEnds : Prop :=
  ∀ (s t : State) (n : Nat) (rest : List HostOp),
    Unmarked s → s.int = false → s.inflight = none → s.queued = false →
    s.driver.ops = .poll none :: rest →
    (ReachedIn n s t → t.driver.ops = .poll none :: rest ∧ t.int = false ∧ t.trace = s.trace) ∧
    ∃ u, ReachedIn n s u

/-- R248, R230 (R185): probing an address where no device answers. From Idle with nothing pending, with BUS
letting each completion happen after any number of waits, a START that succeeds and an address byte that is
not acknowledged: the operation returns Error, the STATUS read by its second check has code 0x20, its events
are Start, Byte(W(a), Nack), Stop, and no data phase occurs. -/
def Obligations.ProbeOfAnAbsentDeviceReturnsError : Prop :=
  ∀ (s : State) (p : HostParams) (a : Nat) (rest : List HostOp) (script : List BusMove)
    (k₁ k₂ : Nat) (r₁ r₂ : Byte),
    Unmarked s → BlockInv s → s.phase = .idle → s.inFlight = false → s.sto = false → a ≤ 0x7F →
    p.pollBound = none → inProgress rest = false →
    s.driver.ops = .call p (.probe a) :: rest →
    s.bus =
      List.replicate k₁ .wait ++ .complete .success r₁ ::
        (List.replicate k₂ .wait ++ .complete .nack r₂ :: script) →
    ∃ n t, ReachedIn n s t ∧ t.driver.ops = rest ∧
      t.driver.results = s.driver.results ++ [.error] ∧
      t.trace = s.trace ++ [.start, .byte (slaW (BitVec.ofNat 7 a)) .nack, .stop] ∧
      (t.driver.value.map fun v => v &&& 0xF8) = some 0x20 ∧ t.phase = .idle

/-! ### The premises on BUS -/

/-- R185: what each premise excludes at a completion. Under NoDevice(a) the address byte of `a` does not lead to
MtSlaAck or MrSlaAck; under Quiet nothing leads to ArbLost or BusError; under Responsive(a) a start and every
byte for the slave `a` leads to the success member of its row, and a byte for another slave still has every
member its row has. What Responsive(a) covers is DEDUCED (log entry 19). -/
def Obligations.PremisesExcludeWhatTheySay : Prop :=
  ∀ (s t : State) (m : BusMove) (c : Cmd), s.sto = false → s.inflight = some c → s.engineStep m = some t →
    (∀ a b, NoDevice a s m → c = .transmit → (s.phase = .started ∨ s.phase = .repStarted) →
      s.data = some b → slaAddress b = a → t.phase ∉ [Phase.mtSlaAck, .mrSlaAck]) ∧
    (quietMove m = true → t.phase ∉ [Phase.arbLost, .busError]) ∧
    (∀ a, Responsive a s m → (c = .start ∨ s.addressee = some a) →
      t.phase ∈ [Phase.started, .repStarted, .mtSlaAck, .mrSlaAck, .mtDataAck, .mrDataAck, .mrDataNack]) ∧
    (∀ a b, c ≠ .start → s.addressee = some b → b ≠ a → ∀ k, Responsive a s k)

/-- R248, R230, with R185's premises and R184's on the run: from Idle with nothing pending, on every run on
which no slave answers at the address, BUS is quiet and every ENGINE step that stays enabled is taken at last,
`probe` returns Error, the STATUS read by its second check has code 0x20, its events are Start, Byte(W(a), Nack),
Stop, and no data phase occurs. -/
def Obligations.ProbeFailsUnderNoDeviceAndQuiet : Prop :=
  ∀ (s : State) (p : HostParams) (a : Nat) (rest : List HostOp),
    Unmarked s → BlockInv s → s.phase = .idle → s.inFlight = false → s.sto = false → a ≤ 0x7F →
    p.pollBound = none → inProgress rest = false →
    s.driver.ops = .call p (.probe a) :: rest →
    BusLive s → OnRun (fun _ m => quietMove m = true) s → OnRun (NoDevice (BitVec.ofNat 7 a)) s →
    ∃ n t, ReachedIn n s t ∧ t.driver.ops = rest ∧
      t.driver.results = s.driver.results ++ [.error] ∧
      t.trace = s.trace ++ [.start, .byte (slaW (BitVec.ofNat 7 a)) .nack, .stop] ∧
      (t.driver.value.map fun v => v &&& 0xF8) = some 0x20 ∧ t.phase = .idle
end

