-- ==== Sys2Proof/Laws/Decode.lean ====
section
/-! SUPPORT. The decoder's small lemmas: the value checks agree with WellFormed, the fields of an encoded
word, what a CTRL write decodes to. -/

namespace Sys2Proof

/-- The decoder's checks (R75) accept exactly the values of the opcode table's CTRL_WRITE rows. -/
theorem ctrlDefect_none_iff (v : Byte) : ctrlDefect v = none ↔ ctrlValueWellFormed v = true := by
  revert v; decide

/-- Every well-formed CTRL value is one of five shapes with EA free (R77). -/
theorem ctrlValueWellFormed_cases (v : Byte) (h : ctrlValueWellFormed v = true) :
    v = 0x00 ||| eaBit (ctrlEa v) ∨ v = 0x04 ||| eaBit (ctrlEa v) ∨ v = 0xA4 ||| eaBit (ctrlEa v) ∨
      v = 0x94 ||| eaBit (ctrlEa v) ∨ v = 0x84 ||| eaBit (ctrlEa v) := by
  revert v; decide

@[simp] theorem accessVal_accessWord (w : Bool) (r : Reg) (v : Byte) :
    accessVal (accessWord w r v) = v := by
  cases w <;> cases r <;> revert v <;> decide

@[simp] theorem accessWord_top (w : Bool) (r : Reg) (v : Byte) :
    (accessWord w r v).extractLsb' 8 3 = BitVec.ofBool w ++ regIndex r := by
  cases w <;> cases r <;> revert v <;> decide

/-- A CTRL write word decodes by its value and the phase (R81). -/
theorem decode_wrCtrl_word (p : Phase) (v : Byte) :
    decode p (accessWord true .ctrl v) = decodeCtrlWrite p v := by
  simp [decode, regIndex]

theorem decodeCtrlWrite_enable (p : Phase) (ea : Bool) :
    decodeCtrlWrite p (0x04 ||| eaBit ea) = .enable ea := by
  cases ea <;> rfl

theorem decodeCtrlWrite_disable (p : Phase) (ea : Bool) :
    decodeCtrlWrite p (0x00 ||| eaBit ea) = .disable ea := by
  cases ea <;> rfl

theorem decodeCtrlWrite_stop (p : Phase) (ea : Bool) :
    decodeCtrlWrite p (0x94 ||| eaBit ea) = .stop ea := by
  cases ea <;> rfl

theorem decodeCtrlWrite_start (p : Phase) (ea : Bool) :
    decodeCtrlWrite p (0xA4 ||| eaBit ea) = if p = .mtDataAck then .repStart ea else .start ea := by
  cases ea <;> cases p <;> rfl

theorem decodeCtrlWrite_continue (p : Phase) (ea : Bool) :
    decodeCtrlWrite p (0x84 ||| eaBit ea) =
      match continueCommand ea p with
      | some c => commandInstr c ea
      | none => .wrCtrl (0x84 ||| eaBit ea) := by
  cases ea <;> cases p <;> rfl

end Sys2Proof
end

