-- ==== Sys2Proof/Laws/State.lean ====
section
/-! SUPPORT. One lemma per field per update of the state: what the update leaves in the field. -/

namespace Sys2Proof.Machine

/-! ### setPhase -/

@[simp] theorem State.setPhase_phase (p : Phase) (s : State) : (s.setPhase p).phase = p := rfl
@[simp] theorem State.setPhase_int (p : Phase) (s : State) : (s.setPhase p).int = s.int := rfl
@[simp] theorem State.setPhase_ea (p : Phase) (s : State) : (s.setPhase p).ea = s.ea := rfl
@[simp] theorem State.setPhase_sta (p : Phase) (s : State) : (s.setPhase p).sta = s.sta := rfl
@[simp] theorem State.setPhase_sto (p : Phase) (s : State) : (s.setPhase p).sto = s.sto := rfl
@[simp] theorem State.setPhase_en (p : Phase) (s : State) : (s.setPhase p).en = s.en := rfl
@[simp] theorem State.setPhase_ps (p : Phase) (s : State) : (s.setPhase p).ps = s.ps := rfl
@[simp] theorem State.setPhase_baud (p : Phase) (s : State) : (s.setPhase p).baud = s.baud := rfl
@[simp] theorem State.setPhase_data (p : Phase) (s : State) : (s.setPhase p).data = s.data := rfl
@[simp] theorem State.setPhase_inflight (p : Phase) (s : State) : (s.setPhase p).inflight = s.inflight := rfl
@[simp] theorem State.setPhase_queued (p : Phase) (s : State) : (s.setPhase p).queued = s.queued := rfl
@[simp] theorem State.setPhase_trace (p : Phase) (s : State) : (s.setPhase p).trace = s.trace := rfl
@[simp] theorem State.setPhase_fault (p : Phase) (s : State) : (s.setPhase p).fault = s.fault := rfl
@[simp] theorem State.setPhase_refused (p : Phase) (s : State) : (s.setPhase p).refused = s.refused := rfl
@[simp] theorem State.setPhase_driver (p : Phase) (s : State) : (s.setPhase p).driver = s.driver := rfl
@[simp] theorem State.setPhase_bus (p : Phase) (s : State) : (s.setPhase p).bus = s.bus := rfl
@[simp] theorem State.setPhase_tick (p : Phase) (s : State) : (s.setPhase p).tick = s.tick := rfl
@[simp] theorem State.setPhase_epoch (p : Phase) (s : State) : (s.setPhase p).epoch = s.epoch := rfl

/-! ### setInt -/

@[simp] theorem State.setInt_phase (b : Bool) (s : State) : (s.setInt b).phase = s.phase := rfl
@[simp] theorem State.setInt_int (b : Bool) (s : State) : (s.setInt b).int = b := rfl
@[simp] theorem State.setInt_ea (b : Bool) (s : State) : (s.setInt b).ea = s.ea := rfl
@[simp] theorem State.setInt_sta (b : Bool) (s : State) : (s.setInt b).sta = s.sta := rfl
@[simp] theorem State.setInt_sto (b : Bool) (s : State) : (s.setInt b).sto = s.sto := rfl
@[simp] theorem State.setInt_en (b : Bool) (s : State) : (s.setInt b).en = s.en := rfl
@[simp] theorem State.setInt_ps (b : Bool) (s : State) : (s.setInt b).ps = s.ps := rfl
@[simp] theorem State.setInt_baud (b : Bool) (s : State) : (s.setInt b).baud = s.baud := rfl
@[simp] theorem State.setInt_data (b : Bool) (s : State) : (s.setInt b).data = s.data := rfl
@[simp] theorem State.setInt_inflight (b : Bool) (s : State) : (s.setInt b).inflight = s.inflight := rfl
@[simp] theorem State.setInt_queued (b : Bool) (s : State) : (s.setInt b).queued = s.queued := rfl
@[simp] theorem State.setInt_trace (b : Bool) (s : State) : (s.setInt b).trace = s.trace := rfl
@[simp] theorem State.setInt_fault (b : Bool) (s : State) : (s.setInt b).fault = s.fault := rfl
@[simp] theorem State.setInt_refused (b : Bool) (s : State) : (s.setInt b).refused = s.refused := rfl
@[simp] theorem State.setInt_driver (b : Bool) (s : State) : (s.setInt b).driver = s.driver := rfl
@[simp] theorem State.setInt_bus (b : Bool) (s : State) : (s.setInt b).bus = s.bus := rfl
@[simp] theorem State.setInt_tick (b : Bool) (s : State) : (s.setInt b).tick = s.tick := rfl
@[simp] theorem State.setInt_epoch (b : Bool) (s : State) : (s.setInt b).epoch = s.epoch := rfl

/-! ### setEa -/

@[simp] theorem State.setEa_phase (b : Bool) (s : State) : (s.setEa b).phase = s.phase := rfl
@[simp] theorem State.setEa_int (b : Bool) (s : State) : (s.setEa b).int = s.int := rfl
@[simp] theorem State.setEa_ea (b : Bool) (s : State) : (s.setEa b).ea = b := rfl
@[simp] theorem State.setEa_sta (b : Bool) (s : State) : (s.setEa b).sta = s.sta := rfl
@[simp] theorem State.setEa_sto (b : Bool) (s : State) : (s.setEa b).sto = s.sto := rfl
@[simp] theorem State.setEa_en (b : Bool) (s : State) : (s.setEa b).en = s.en := rfl
@[simp] theorem State.setEa_ps (b : Bool) (s : State) : (s.setEa b).ps = s.ps := rfl
@[simp] theorem State.setEa_baud (b : Bool) (s : State) : (s.setEa b).baud = s.baud := rfl
@[simp] theorem State.setEa_data (b : Bool) (s : State) : (s.setEa b).data = s.data := rfl
@[simp] theorem State.setEa_inflight (b : Bool) (s : State) : (s.setEa b).inflight = s.inflight := rfl
@[simp] theorem State.setEa_queued (b : Bool) (s : State) : (s.setEa b).queued = s.queued := rfl
@[simp] theorem State.setEa_trace (b : Bool) (s : State) : (s.setEa b).trace = s.trace := rfl
@[simp] theorem State.setEa_fault (b : Bool) (s : State) : (s.setEa b).fault = s.fault := rfl
@[simp] theorem State.setEa_refused (b : Bool) (s : State) : (s.setEa b).refused = s.refused := rfl
@[simp] theorem State.setEa_driver (b : Bool) (s : State) : (s.setEa b).driver = s.driver := rfl
@[simp] theorem State.setEa_bus (b : Bool) (s : State) : (s.setEa b).bus = s.bus := rfl
@[simp] theorem State.setEa_tick (b : Bool) (s : State) : (s.setEa b).tick = s.tick := rfl
@[simp] theorem State.setEa_epoch (b : Bool) (s : State) : (s.setEa b).epoch = s.epoch := rfl

/-! ### setSta -/

@[simp] theorem State.setSta_phase (b : Bool) (s : State) : (s.setSta b).phase = s.phase := rfl
@[simp] theorem State.setSta_int (b : Bool) (s : State) : (s.setSta b).int = s.int := rfl
@[simp] theorem State.setSta_ea (b : Bool) (s : State) : (s.setSta b).ea = s.ea := rfl
@[simp] theorem State.setSta_sta (b : Bool) (s : State) : (s.setSta b).sta = b := rfl
@[simp] theorem State.setSta_sto (b : Bool) (s : State) : (s.setSta b).sto = s.sto := rfl
@[simp] theorem State.setSta_en (b : Bool) (s : State) : (s.setSta b).en = s.en := rfl
@[simp] theorem State.setSta_ps (b : Bool) (s : State) : (s.setSta b).ps = s.ps := rfl
@[simp] theorem State.setSta_baud (b : Bool) (s : State) : (s.setSta b).baud = s.baud := rfl
@[simp] theorem State.setSta_data (b : Bool) (s : State) : (s.setSta b).data = s.data := rfl
@[simp] theorem State.setSta_inflight (b : Bool) (s : State) : (s.setSta b).inflight = s.inflight := rfl
@[simp] theorem State.setSta_queued (b : Bool) (s : State) : (s.setSta b).queued = s.queued := rfl
@[simp] theorem State.setSta_trace (b : Bool) (s : State) : (s.setSta b).trace = s.trace := rfl
@[simp] theorem State.setSta_fault (b : Bool) (s : State) : (s.setSta b).fault = s.fault := rfl
@[simp] theorem State.setSta_refused (b : Bool) (s : State) : (s.setSta b).refused = s.refused := rfl
@[simp] theorem State.setSta_driver (b : Bool) (s : State) : (s.setSta b).driver = s.driver := rfl
@[simp] theorem State.setSta_bus (b : Bool) (s : State) : (s.setSta b).bus = s.bus := rfl
@[simp] theorem State.setSta_tick (b : Bool) (s : State) : (s.setSta b).tick = s.tick := rfl
@[simp] theorem State.setSta_epoch (b : Bool) (s : State) : (s.setSta b).epoch = s.epoch := rfl

/-! ### setSto -/

@[simp] theorem State.setSto_phase (b : Bool) (s : State) : (s.setSto b).phase = s.phase := rfl
@[simp] theorem State.setSto_int (b : Bool) (s : State) : (s.setSto b).int = s.int := rfl
@[simp] theorem State.setSto_ea (b : Bool) (s : State) : (s.setSto b).ea = s.ea := rfl
@[simp] theorem State.setSto_sta (b : Bool) (s : State) : (s.setSto b).sta = s.sta := rfl
@[simp] theorem State.setSto_sto (b : Bool) (s : State) : (s.setSto b).sto = b := rfl
@[simp] theorem State.setSto_en (b : Bool) (s : State) : (s.setSto b).en = s.en := rfl
@[simp] theorem State.setSto_ps (b : Bool) (s : State) : (s.setSto b).ps = s.ps := rfl
@[simp] theorem State.setSto_baud (b : Bool) (s : State) : (s.setSto b).baud = s.baud := rfl
@[simp] theorem State.setSto_data (b : Bool) (s : State) : (s.setSto b).data = s.data := rfl
@[simp] theorem State.setSto_inflight (b : Bool) (s : State) : (s.setSto b).inflight = s.inflight := rfl
@[simp] theorem State.setSto_queued (b : Bool) (s : State) : (s.setSto b).queued = s.queued := rfl
@[simp] theorem State.setSto_trace (b : Bool) (s : State) : (s.setSto b).trace = s.trace := rfl
@[simp] theorem State.setSto_fault (b : Bool) (s : State) : (s.setSto b).fault = s.fault := rfl
@[simp] theorem State.setSto_refused (b : Bool) (s : State) : (s.setSto b).refused = s.refused := rfl
@[simp] theorem State.setSto_driver (b : Bool) (s : State) : (s.setSto b).driver = s.driver := rfl
@[simp] theorem State.setSto_bus (b : Bool) (s : State) : (s.setSto b).bus = s.bus := rfl
@[simp] theorem State.setSto_tick (b : Bool) (s : State) : (s.setSto b).tick = s.tick := rfl
@[simp] theorem State.setSto_epoch (b : Bool) (s : State) : (s.setSto b).epoch = s.epoch := rfl

/-! ### setEn -/

@[simp] theorem State.setEn_phase (b : Bool) (s : State) : (s.setEn b).phase = s.phase := rfl
@[simp] theorem State.setEn_int (b : Bool) (s : State) : (s.setEn b).int = s.int := rfl
@[simp] theorem State.setEn_ea (b : Bool) (s : State) : (s.setEn b).ea = s.ea := rfl
@[simp] theorem State.setEn_sta (b : Bool) (s : State) : (s.setEn b).sta = s.sta := rfl
@[simp] theorem State.setEn_sto (b : Bool) (s : State) : (s.setEn b).sto = s.sto := rfl
@[simp] theorem State.setEn_en (b : Bool) (s : State) : (s.setEn b).en = b := rfl
@[simp] theorem State.setEn_ps (b : Bool) (s : State) : (s.setEn b).ps = s.ps := rfl
@[simp] theorem State.setEn_baud (b : Bool) (s : State) : (s.setEn b).baud = s.baud := rfl
@[simp] theorem State.setEn_data (b : Bool) (s : State) : (s.setEn b).data = s.data := rfl
@[simp] theorem State.setEn_inflight (b : Bool) (s : State) : (s.setEn b).inflight = s.inflight := rfl
@[simp] theorem State.setEn_queued (b : Bool) (s : State) : (s.setEn b).queued = s.queued := rfl
@[simp] theorem State.setEn_trace (b : Bool) (s : State) : (s.setEn b).trace = s.trace := rfl
@[simp] theorem State.setEn_fault (b : Bool) (s : State) : (s.setEn b).fault = s.fault := rfl
@[simp] theorem State.setEn_refused (b : Bool) (s : State) : (s.setEn b).refused = s.refused := rfl
@[simp] theorem State.setEn_driver (b : Bool) (s : State) : (s.setEn b).driver = s.driver := rfl
@[simp] theorem State.setEn_bus (b : Bool) (s : State) : (s.setEn b).bus = s.bus := rfl
@[simp] theorem State.setEn_tick (b : Bool) (s : State) : (s.setEn b).tick = s.tick := rfl
@[simp] theorem State.setEn_epoch (b : Bool) (s : State) : (s.setEn b).epoch = s.epoch := rfl

/-! ### setPs -/

@[simp] theorem State.setPs_phase (v : BitVec 2) (s : State) : (s.setPs v).phase = s.phase := rfl
@[simp] theorem State.setPs_int (v : BitVec 2) (s : State) : (s.setPs v).int = s.int := rfl
@[simp] theorem State.setPs_ea (v : BitVec 2) (s : State) : (s.setPs v).ea = s.ea := rfl
@[simp] theorem State.setPs_sta (v : BitVec 2) (s : State) : (s.setPs v).sta = s.sta := rfl
@[simp] theorem State.setPs_sto (v : BitVec 2) (s : State) : (s.setPs v).sto = s.sto := rfl
@[simp] theorem State.setPs_en (v : BitVec 2) (s : State) : (s.setPs v).en = s.en := rfl
@[simp] theorem State.setPs_ps (v : BitVec 2) (s : State) : (s.setPs v).ps = v := rfl
@[simp] theorem State.setPs_baud (v : BitVec 2) (s : State) : (s.setPs v).baud = s.baud := rfl
@[simp] theorem State.setPs_data (v : BitVec 2) (s : State) : (s.setPs v).data = s.data := rfl
@[simp] theorem State.setPs_inflight (v : BitVec 2) (s : State) : (s.setPs v).inflight = s.inflight := rfl
@[simp] theorem State.setPs_queued (v : BitVec 2) (s : State) : (s.setPs v).queued = s.queued := rfl
@[simp] theorem State.setPs_trace (v : BitVec 2) (s : State) : (s.setPs v).trace = s.trace := rfl
@[simp] theorem State.setPs_fault (v : BitVec 2) (s : State) : (s.setPs v).fault = s.fault := rfl
@[simp] theorem State.setPs_refused (v : BitVec 2) (s : State) : (s.setPs v).refused = s.refused := rfl
@[simp] theorem State.setPs_driver (v : BitVec 2) (s : State) : (s.setPs v).driver = s.driver := rfl
@[simp] theorem State.setPs_bus (v : BitVec 2) (s : State) : (s.setPs v).bus = s.bus := rfl
@[simp] theorem State.setPs_tick (v : BitVec 2) (s : State) : (s.setPs v).tick = s.tick := rfl
@[simp] theorem State.setPs_epoch (v : BitVec 2) (s : State) : (s.setPs v).epoch = s.epoch := rfl

/-! ### setBaud -/

@[simp] theorem State.setBaud_phase (v : Byte) (s : State) : (s.setBaud v).phase = s.phase := rfl
@[simp] theorem State.setBaud_int (v : Byte) (s : State) : (s.setBaud v).int = s.int := rfl
@[simp] theorem State.setBaud_ea (v : Byte) (s : State) : (s.setBaud v).ea = s.ea := rfl
@[simp] theorem State.setBaud_sta (v : Byte) (s : State) : (s.setBaud v).sta = s.sta := rfl
@[simp] theorem State.setBaud_sto (v : Byte) (s : State) : (s.setBaud v).sto = s.sto := rfl
@[simp] theorem State.setBaud_en (v : Byte) (s : State) : (s.setBaud v).en = s.en := rfl
@[simp] theorem State.setBaud_ps (v : Byte) (s : State) : (s.setBaud v).ps = s.ps := rfl
@[simp] theorem State.setBaud_baud (v : Byte) (s : State) : (s.setBaud v).baud = v := rfl
@[simp] theorem State.setBaud_data (v : Byte) (s : State) : (s.setBaud v).data = s.data := rfl
@[simp] theorem State.setBaud_inflight (v : Byte) (s : State) : (s.setBaud v).inflight = s.inflight := rfl
@[simp] theorem State.setBaud_queued (v : Byte) (s : State) : (s.setBaud v).queued = s.queued := rfl
@[simp] theorem State.setBaud_trace (v : Byte) (s : State) : (s.setBaud v).trace = s.trace := rfl
@[simp] theorem State.setBaud_fault (v : Byte) (s : State) : (s.setBaud v).fault = s.fault := rfl
@[simp] theorem State.setBaud_refused (v : Byte) (s : State) : (s.setBaud v).refused = s.refused := rfl
@[simp] theorem State.setBaud_driver (v : Byte) (s : State) : (s.setBaud v).driver = s.driver := rfl
@[simp] theorem State.setBaud_bus (v : Byte) (s : State) : (s.setBaud v).bus = s.bus := rfl
@[simp] theorem State.setBaud_tick (v : Byte) (s : State) : (s.setBaud v).tick = s.tick := rfl
@[simp] theorem State.setBaud_epoch (v : Byte) (s : State) : (s.setBaud v).epoch = s.epoch := rfl

/-! ### setData -/

@[simp] theorem State.setData_phase (d : Option Byte) (s : State) : (s.setData d).phase = s.phase := rfl
@[simp] theorem State.setData_int (d : Option Byte) (s : State) : (s.setData d).int = s.int := rfl
@[simp] theorem State.setData_ea (d : Option Byte) (s : State) : (s.setData d).ea = s.ea := rfl
@[simp] theorem State.setData_sta (d : Option Byte) (s : State) : (s.setData d).sta = s.sta := rfl
@[simp] theorem State.setData_sto (d : Option Byte) (s : State) : (s.setData d).sto = s.sto := rfl
@[simp] theorem State.setData_en (d : Option Byte) (s : State) : (s.setData d).en = s.en := rfl
@[simp] theorem State.setData_ps (d : Option Byte) (s : State) : (s.setData d).ps = s.ps := rfl
@[simp] theorem State.setData_baud (d : Option Byte) (s : State) : (s.setData d).baud = s.baud := rfl
@[simp] theorem State.setData_data (d : Option Byte) (s : State) : (s.setData d).data = d := rfl
@[simp] theorem State.setData_inflight (d : Option Byte) (s : State) : (s.setData d).inflight = s.inflight := rfl
@[simp] theorem State.setData_queued (d : Option Byte) (s : State) : (s.setData d).queued = s.queued := rfl
@[simp] theorem State.setData_trace (d : Option Byte) (s : State) : (s.setData d).trace = s.trace := rfl
@[simp] theorem State.setData_fault (d : Option Byte) (s : State) : (s.setData d).fault = s.fault := rfl
@[simp] theorem State.setData_refused (d : Option Byte) (s : State) : (s.setData d).refused = s.refused := rfl
@[simp] theorem State.setData_driver (d : Option Byte) (s : State) : (s.setData d).driver = s.driver := rfl
@[simp] theorem State.setData_bus (d : Option Byte) (s : State) : (s.setData d).bus = s.bus := rfl
@[simp] theorem State.setData_tick (d : Option Byte) (s : State) : (s.setData d).tick = s.tick := rfl
@[simp] theorem State.setData_epoch (d : Option Byte) (s : State) : (s.setData d).epoch = s.epoch := rfl

/-! ### setInflight -/

@[simp] theorem State.setInflight_phase (c : Option Cmd) (s : State) : (s.setInflight c).phase = s.phase := rfl
@[simp] theorem State.setInflight_int (c : Option Cmd) (s : State) : (s.setInflight c).int = s.int := rfl
@[simp] theorem State.setInflight_ea (c : Option Cmd) (s : State) : (s.setInflight c).ea = s.ea := rfl
@[simp] theorem State.setInflight_sta (c : Option Cmd) (s : State) : (s.setInflight c).sta = s.sta := rfl
@[simp] theorem State.setInflight_sto (c : Option Cmd) (s : State) : (s.setInflight c).sto = s.sto := rfl
@[simp] theorem State.setInflight_en (c : Option Cmd) (s : State) : (s.setInflight c).en = s.en := rfl
@[simp] theorem State.setInflight_ps (c : Option Cmd) (s : State) : (s.setInflight c).ps = s.ps := rfl
@[simp] theorem State.setInflight_baud (c : Option Cmd) (s : State) : (s.setInflight c).baud = s.baud := rfl
@[simp] theorem State.setInflight_data (c : Option Cmd) (s : State) : (s.setInflight c).data = s.data := rfl
@[simp] theorem State.setInflight_inflight (c : Option Cmd) (s : State) : (s.setInflight c).inflight = c := rfl
@[simp] theorem State.setInflight_queued (c : Option Cmd) (s : State) : (s.setInflight c).queued = s.queued := rfl
@[simp] theorem State.setInflight_trace (c : Option Cmd) (s : State) : (s.setInflight c).trace = s.trace := rfl
@[simp] theorem State.setInflight_fault (c : Option Cmd) (s : State) : (s.setInflight c).fault = s.fault := rfl
@[simp] theorem State.setInflight_refused (c : Option Cmd) (s : State) : (s.setInflight c).refused = s.refused := rfl
@[simp] theorem State.setInflight_driver (c : Option Cmd) (s : State) : (s.setInflight c).driver = s.driver := rfl
@[simp] theorem State.setInflight_bus (c : Option Cmd) (s : State) : (s.setInflight c).bus = s.bus := rfl
@[simp] theorem State.setInflight_tick (c : Option Cmd) (s : State) : (s.setInflight c).tick = s.tick := rfl
@[simp] theorem State.setInflight_epoch (c : Option Cmd) (s : State) : (s.setInflight c).epoch = s.epoch := rfl

/-! ### setQueued -/

@[simp] theorem State.setQueued_phase (b : Bool) (s : State) : (s.setQueued b).phase = s.phase := rfl
@[simp] theorem State.setQueued_int (b : Bool) (s : State) : (s.setQueued b).int = s.int := rfl
@[simp] theorem State.setQueued_ea (b : Bool) (s : State) : (s.setQueued b).ea = s.ea := rfl
@[simp] theorem State.setQueued_sta (b : Bool) (s : State) : (s.setQueued b).sta = s.sta := rfl
@[simp] theorem State.setQueued_sto (b : Bool) (s : State) : (s.setQueued b).sto = s.sto := rfl
@[simp] theorem State.setQueued_en (b : Bool) (s : State) : (s.setQueued b).en = s.en := rfl
@[simp] theorem State.setQueued_ps (b : Bool) (s : State) : (s.setQueued b).ps = s.ps := rfl
@[simp] theorem State.setQueued_baud (b : Bool) (s : State) : (s.setQueued b).baud = s.baud := rfl
@[simp] theorem State.setQueued_data (b : Bool) (s : State) : (s.setQueued b).data = s.data := rfl
@[simp] theorem State.setQueued_inflight (b : Bool) (s : State) : (s.setQueued b).inflight = s.inflight := rfl
@[simp] theorem State.setQueued_queued (b : Bool) (s : State) : (s.setQueued b).queued = b := rfl
@[simp] theorem State.setQueued_trace (b : Bool) (s : State) : (s.setQueued b).trace = s.trace := rfl
@[simp] theorem State.setQueued_fault (b : Bool) (s : State) : (s.setQueued b).fault = s.fault := rfl
@[simp] theorem State.setQueued_refused (b : Bool) (s : State) : (s.setQueued b).refused = s.refused := rfl
@[simp] theorem State.setQueued_driver (b : Bool) (s : State) : (s.setQueued b).driver = s.driver := rfl
@[simp] theorem State.setQueued_bus (b : Bool) (s : State) : (s.setQueued b).bus = s.bus := rfl
@[simp] theorem State.setQueued_tick (b : Bool) (s : State) : (s.setQueued b).tick = s.tick := rfl
@[simp] theorem State.setQueued_epoch (b : Bool) (s : State) : (s.setQueued b).epoch = s.epoch := rfl

/-! ### emit -/

@[simp] theorem State.emit_phase (e : BusEvent) (s : State) : (s.emit e).phase = s.phase := rfl
@[simp] theorem State.emit_int (e : BusEvent) (s : State) : (s.emit e).int = s.int := rfl
@[simp] theorem State.emit_ea (e : BusEvent) (s : State) : (s.emit e).ea = s.ea := rfl
@[simp] theorem State.emit_sta (e : BusEvent) (s : State) : (s.emit e).sta = s.sta := rfl
@[simp] theorem State.emit_sto (e : BusEvent) (s : State) : (s.emit e).sto = s.sto := rfl
@[simp] theorem State.emit_en (e : BusEvent) (s : State) : (s.emit e).en = s.en := rfl
@[simp] theorem State.emit_ps (e : BusEvent) (s : State) : (s.emit e).ps = s.ps := rfl
@[simp] theorem State.emit_baud (e : BusEvent) (s : State) : (s.emit e).baud = s.baud := rfl
@[simp] theorem State.emit_data (e : BusEvent) (s : State) : (s.emit e).data = s.data := rfl
@[simp] theorem State.emit_inflight (e : BusEvent) (s : State) : (s.emit e).inflight = s.inflight := rfl
@[simp] theorem State.emit_queued (e : BusEvent) (s : State) : (s.emit e).queued = s.queued := rfl
@[simp] theorem State.emit_trace (e : BusEvent) (s : State) : (s.emit e).trace = s.trace ++ [e] := rfl
@[simp] theorem State.emit_fault (e : BusEvent) (s : State) : (s.emit e).fault = s.fault := rfl
@[simp] theorem State.emit_refused (e : BusEvent) (s : State) : (s.emit e).refused = s.refused := rfl
@[simp] theorem State.emit_driver (e : BusEvent) (s : State) : (s.emit e).driver = s.driver := rfl
@[simp] theorem State.emit_bus (e : BusEvent) (s : State) : (s.emit e).bus = s.bus := rfl
@[simp] theorem State.emit_tick (e : BusEvent) (s : State) : (s.emit e).tick = s.tick := rfl
@[simp] theorem State.emit_epoch (e : BusEvent) (s : State) : (s.emit e).epoch = s.epoch := rfl

/-! ### setDriver -/

@[simp] theorem State.setDriver_phase (d : Driver) (s : State) : (s.setDriver d).phase = s.phase := rfl
@[simp] theorem State.setDriver_int (d : Driver) (s : State) : (s.setDriver d).int = s.int := rfl
@[simp] theorem State.setDriver_ea (d : Driver) (s : State) : (s.setDriver d).ea = s.ea := rfl
@[simp] theorem State.setDriver_sta (d : Driver) (s : State) : (s.setDriver d).sta = s.sta := rfl
@[simp] theorem State.setDriver_sto (d : Driver) (s : State) : (s.setDriver d).sto = s.sto := rfl
@[simp] theorem State.setDriver_en (d : Driver) (s : State) : (s.setDriver d).en = s.en := rfl
@[simp] theorem State.setDriver_ps (d : Driver) (s : State) : (s.setDriver d).ps = s.ps := rfl
@[simp] theorem State.setDriver_baud (d : Driver) (s : State) : (s.setDriver d).baud = s.baud := rfl
@[simp] theorem State.setDriver_data (d : Driver) (s : State) : (s.setDriver d).data = s.data := rfl
@[simp] theorem State.setDriver_inflight (d : Driver) (s : State) : (s.setDriver d).inflight = s.inflight := rfl
@[simp] theorem State.setDriver_queued (d : Driver) (s : State) : (s.setDriver d).queued = s.queued := rfl
@[simp] theorem State.setDriver_trace (d : Driver) (s : State) : (s.setDriver d).trace = s.trace := rfl
@[simp] theorem State.setDriver_fault (d : Driver) (s : State) : (s.setDriver d).fault = s.fault := rfl
@[simp] theorem State.setDriver_refused (d : Driver) (s : State) : (s.setDriver d).refused = s.refused := rfl
@[simp] theorem State.setDriver_driver (d : Driver) (s : State) : (s.setDriver d).driver = d := rfl
@[simp] theorem State.setDriver_bus (d : Driver) (s : State) : (s.setDriver d).bus = s.bus := rfl
@[simp] theorem State.setDriver_tick (d : Driver) (s : State) : (s.setDriver d).tick = s.tick := rfl
@[simp] theorem State.setDriver_epoch (d : Driver) (s : State) : (s.setDriver d).epoch = s.epoch := rfl

/-! ### readBack -/

@[simp] theorem State.readBack_phase (v : Byte) (s : State) : (s.readBack v).phase = s.phase := rfl
@[simp] theorem State.readBack_int (v : Byte) (s : State) : (s.readBack v).int = s.int := rfl
@[simp] theorem State.readBack_ea (v : Byte) (s : State) : (s.readBack v).ea = s.ea := rfl
@[simp] theorem State.readBack_sta (v : Byte) (s : State) : (s.readBack v).sta = s.sta := rfl
@[simp] theorem State.readBack_sto (v : Byte) (s : State) : (s.readBack v).sto = s.sto := rfl
@[simp] theorem State.readBack_en (v : Byte) (s : State) : (s.readBack v).en = s.en := rfl
@[simp] theorem State.readBack_ps (v : Byte) (s : State) : (s.readBack v).ps = s.ps := rfl
@[simp] theorem State.readBack_baud (v : Byte) (s : State) : (s.readBack v).baud = s.baud := rfl
@[simp] theorem State.readBack_data (v : Byte) (s : State) : (s.readBack v).data = s.data := rfl
@[simp] theorem State.readBack_inflight (v : Byte) (s : State) : (s.readBack v).inflight = s.inflight := rfl
@[simp] theorem State.readBack_queued (v : Byte) (s : State) : (s.readBack v).queued = s.queued := rfl
@[simp] theorem State.readBack_trace (v : Byte) (s : State) : (s.readBack v).trace = s.trace := rfl
@[simp] theorem State.readBack_fault (v : Byte) (s : State) : (s.readBack v).fault = s.fault := rfl
@[simp] theorem State.readBack_refused (v : Byte) (s : State) : (s.readBack v).refused = s.refused := rfl
@[simp] theorem State.readBack_driver (v : Byte) (s : State) : (s.readBack v).driver = { s.driver with value := some v } := rfl
@[simp] theorem State.readBack_bus (v : Byte) (s : State) : (s.readBack v).bus = s.bus := rfl
@[simp] theorem State.readBack_tick (v : Byte) (s : State) : (s.readBack v).tick = s.tick := rfl
@[simp] theorem State.readBack_epoch (v : Byte) (s : State) : (s.readBack v).epoch = s.epoch := rfl

/-! ### setOps -/

@[simp] theorem State.setOps_phase (ops : List HostOp) (s : State) : (s.setOps ops).phase = s.phase := rfl
@[simp] theorem State.setOps_int (ops : List HostOp) (s : State) : (s.setOps ops).int = s.int := rfl
@[simp] theorem State.setOps_ea (ops : List HostOp) (s : State) : (s.setOps ops).ea = s.ea := rfl
@[simp] theorem State.setOps_sta (ops : List HostOp) (s : State) : (s.setOps ops).sta = s.sta := rfl
@[simp] theorem State.setOps_sto (ops : List HostOp) (s : State) : (s.setOps ops).sto = s.sto := rfl
@[simp] theorem State.setOps_en (ops : List HostOp) (s : State) : (s.setOps ops).en = s.en := rfl
@[simp] theorem State.setOps_ps (ops : List HostOp) (s : State) : (s.setOps ops).ps = s.ps := rfl
@[simp] theorem State.setOps_baud (ops : List HostOp) (s : State) : (s.setOps ops).baud = s.baud := rfl
@[simp] theorem State.setOps_data (ops : List HostOp) (s : State) : (s.setOps ops).data = s.data := rfl
@[simp] theorem State.setOps_inflight (ops : List HostOp) (s : State) : (s.setOps ops).inflight = s.inflight := rfl
@[simp] theorem State.setOps_queued (ops : List HostOp) (s : State) : (s.setOps ops).queued = s.queued := rfl
@[simp] theorem State.setOps_trace (ops : List HostOp) (s : State) : (s.setOps ops).trace = s.trace := rfl
@[simp] theorem State.setOps_fault (ops : List HostOp) (s : State) : (s.setOps ops).fault = s.fault := rfl
@[simp] theorem State.setOps_refused (ops : List HostOp) (s : State) : (s.setOps ops).refused = s.refused := rfl
@[simp] theorem State.setOps_driver (ops : List HostOp) (s : State) : (s.setOps ops).driver = { s.driver with ops := ops } := rfl
@[simp] theorem State.setOps_bus (ops : List HostOp) (s : State) : (s.setOps ops).bus = s.bus := rfl
@[simp] theorem State.setOps_tick (ops : List HostOp) (s : State) : (s.setOps ops).tick = s.tick := rfl
@[simp] theorem State.setOps_epoch (ops : List HostOp) (s : State) : (s.setOps ops).epoch = s.epoch := rfl

/-! ### addResult -/

@[simp] theorem State.addResult_phase (r : Result) (s : State) : (s.addResult r).phase = s.phase := rfl
@[simp] theorem State.addResult_int (r : Result) (s : State) : (s.addResult r).int = s.int := rfl
@[simp] theorem State.addResult_ea (r : Result) (s : State) : (s.addResult r).ea = s.ea := rfl
@[simp] theorem State.addResult_sta (r : Result) (s : State) : (s.addResult r).sta = s.sta := rfl
@[simp] theorem State.addResult_sto (r : Result) (s : State) : (s.addResult r).sto = s.sto := rfl
@[simp] theorem State.addResult_en (r : Result) (s : State) : (s.addResult r).en = s.en := rfl
@[simp] theorem State.addResult_ps (r : Result) (s : State) : (s.addResult r).ps = s.ps := rfl
@[simp] theorem State.addResult_baud (r : Result) (s : State) : (s.addResult r).baud = s.baud := rfl
@[simp] theorem State.addResult_data (r : Result) (s : State) : (s.addResult r).data = s.data := rfl
@[simp] theorem State.addResult_inflight (r : Result) (s : State) : (s.addResult r).inflight = s.inflight := rfl
@[simp] theorem State.addResult_queued (r : Result) (s : State) : (s.addResult r).queued = s.queued := rfl
@[simp] theorem State.addResult_trace (r : Result) (s : State) : (s.addResult r).trace = s.trace := rfl
@[simp] theorem State.addResult_fault (r : Result) (s : State) : (s.addResult r).fault = s.fault := rfl
@[simp] theorem State.addResult_refused (r : Result) (s : State) : (s.addResult r).refused = s.refused := rfl
@[simp] theorem State.addResult_driver (r : Result) (s : State) : (s.addResult r).driver = { s.driver with results := s.driver.results ++ [r] } := rfl
@[simp] theorem State.addResult_bus (r : Result) (s : State) : (s.addResult r).bus = s.bus := rfl
@[simp] theorem State.addResult_tick (r : Result) (s : State) : (s.addResult r).tick = s.tick := rfl
@[simp] theorem State.addResult_epoch (r : Result) (s : State) : (s.addResult r).epoch = s.epoch := rfl

/-! ### storeByte -/

@[simp] theorem State.storeByte_phase (a : Nat) (v : Byte) (s : State) : (s.storeByte a v).phase = s.phase := rfl
@[simp] theorem State.storeByte_int (a : Nat) (v : Byte) (s : State) : (s.storeByte a v).int = s.int := rfl
@[simp] theorem State.storeByte_ea (a : Nat) (v : Byte) (s : State) : (s.storeByte a v).ea = s.ea := rfl
@[simp] theorem State.storeByte_sta (a : Nat) (v : Byte) (s : State) : (s.storeByte a v).sta = s.sta := rfl
@[simp] theorem State.storeByte_sto (a : Nat) (v : Byte) (s : State) : (s.storeByte a v).sto = s.sto := rfl
@[simp] theorem State.storeByte_en (a : Nat) (v : Byte) (s : State) : (s.storeByte a v).en = s.en := rfl
@[simp] theorem State.storeByte_ps (a : Nat) (v : Byte) (s : State) : (s.storeByte a v).ps = s.ps := rfl
@[simp] theorem State.storeByte_baud (a : Nat) (v : Byte) (s : State) : (s.storeByte a v).baud = s.baud := rfl
@[simp] theorem State.storeByte_data (a : Nat) (v : Byte) (s : State) : (s.storeByte a v).data = s.data := rfl
@[simp] theorem State.storeByte_inflight (a : Nat) (v : Byte) (s : State) : (s.storeByte a v).inflight = s.inflight := rfl
@[simp] theorem State.storeByte_queued (a : Nat) (v : Byte) (s : State) : (s.storeByte a v).queued = s.queued := rfl
@[simp] theorem State.storeByte_trace (a : Nat) (v : Byte) (s : State) : (s.storeByte a v).trace = s.trace := rfl
@[simp] theorem State.storeByte_fault (a : Nat) (v : Byte) (s : State) : (s.storeByte a v).fault = s.fault := rfl
@[simp] theorem State.storeByte_refused (a : Nat) (v : Byte) (s : State) : (s.storeByte a v).refused = s.refused := rfl
@[simp] theorem State.storeByte_driver (a : Nat) (v : Byte) (s : State) : (s.storeByte a v).driver = { s.driver with mem := memWrite s.driver.mem a v } := rfl
@[simp] theorem State.storeByte_bus (a : Nat) (v : Byte) (s : State) : (s.storeByte a v).bus = s.bus := rfl
@[simp] theorem State.storeByte_tick (a : Nat) (v : Byte) (s : State) : (s.storeByte a v).tick = s.tick := rfl
@[simp] theorem State.storeByte_epoch (a : Nat) (v : Byte) (s : State) : (s.storeByte a v).epoch = s.epoch := rfl

/-! ### setBus -/

@[simp] theorem State.setBus_phase (b : List BusMove) (s : State) : (s.setBus b).phase = s.phase := rfl
@[simp] theorem State.setBus_int (b : List BusMove) (s : State) : (s.setBus b).int = s.int := rfl
@[simp] theorem State.setBus_ea (b : List BusMove) (s : State) : (s.setBus b).ea = s.ea := rfl
@[simp] theorem State.setBus_sta (b : List BusMove) (s : State) : (s.setBus b).sta = s.sta := rfl
@[simp] theorem State.setBus_sto (b : List BusMove) (s : State) : (s.setBus b).sto = s.sto := rfl
@[simp] theorem State.setBus_en (b : List BusMove) (s : State) : (s.setBus b).en = s.en := rfl
@[simp] theorem State.setBus_ps (b : List BusMove) (s : State) : (s.setBus b).ps = s.ps := rfl
@[simp] theorem State.setBus_baud (b : List BusMove) (s : State) : (s.setBus b).baud = s.baud := rfl
@[simp] theorem State.setBus_data (b : List BusMove) (s : State) : (s.setBus b).data = s.data := rfl
@[simp] theorem State.setBus_inflight (b : List BusMove) (s : State) : (s.setBus b).inflight = s.inflight := rfl
@[simp] theorem State.setBus_queued (b : List BusMove) (s : State) : (s.setBus b).queued = s.queued := rfl
@[simp] theorem State.setBus_trace (b : List BusMove) (s : State) : (s.setBus b).trace = s.trace := rfl
@[simp] theorem State.setBus_fault (b : List BusMove) (s : State) : (s.setBus b).fault = s.fault := rfl
@[simp] theorem State.setBus_refused (b : List BusMove) (s : State) : (s.setBus b).refused = s.refused := rfl
@[simp] theorem State.setBus_driver (b : List BusMove) (s : State) : (s.setBus b).driver = s.driver := rfl
@[simp] theorem State.setBus_bus (b : List BusMove) (s : State) : (s.setBus b).bus = b := rfl
@[simp] theorem State.setBus_tick (b : List BusMove) (s : State) : (s.setBus b).tick = s.tick := rfl
@[simp] theorem State.setBus_epoch (b : List BusMove) (s : State) : (s.setBus b).epoch = s.epoch := rfl

/-! ### nextTick -/

@[simp] theorem State.nextTick_phase (s : State) : (s.nextTick).phase = s.phase := rfl
@[simp] theorem State.nextTick_int (s : State) : (s.nextTick).int = s.int := rfl
@[simp] theorem State.nextTick_ea (s : State) : (s.nextTick).ea = s.ea := rfl
@[simp] theorem State.nextTick_sta (s : State) : (s.nextTick).sta = s.sta := rfl
@[simp] theorem State.nextTick_sto (s : State) : (s.nextTick).sto = s.sto := rfl
@[simp] theorem State.nextTick_en (s : State) : (s.nextTick).en = s.en := rfl
@[simp] theorem State.nextTick_ps (s : State) : (s.nextTick).ps = s.ps := rfl
@[simp] theorem State.nextTick_baud (s : State) : (s.nextTick).baud = s.baud := rfl
@[simp] theorem State.nextTick_data (s : State) : (s.nextTick).data = s.data := rfl
@[simp] theorem State.nextTick_inflight (s : State) : (s.nextTick).inflight = s.inflight := rfl
@[simp] theorem State.nextTick_queued (s : State) : (s.nextTick).queued = s.queued := rfl
@[simp] theorem State.nextTick_trace (s : State) : (s.nextTick).trace = s.trace := rfl
@[simp] theorem State.nextTick_fault (s : State) : (s.nextTick).fault = s.fault := rfl
@[simp] theorem State.nextTick_refused (s : State) : (s.nextTick).refused = s.refused := rfl
@[simp] theorem State.nextTick_driver (s : State) : (s.nextTick).driver = s.driver := rfl
@[simp] theorem State.nextTick_bus (s : State) : (s.nextTick).bus = s.bus := rfl
@[simp] theorem State.nextTick_tick (s : State) : (s.nextTick).tick = s.tick + 1 := rfl
@[simp] theorem State.nextTick_epoch (s : State) : (s.nextTick).epoch = s.epoch := rfl

/-! ### nextEpoch -/

@[simp] theorem State.nextEpoch_phase (s : State) : (s.nextEpoch).phase = s.phase := rfl
@[simp] theorem State.nextEpoch_int (s : State) : (s.nextEpoch).int = s.int := rfl
@[simp] theorem State.nextEpoch_ea (s : State) : (s.nextEpoch).ea = s.ea := rfl
@[simp] theorem State.nextEpoch_sta (s : State) : (s.nextEpoch).sta = s.sta := rfl
@[simp] theorem State.nextEpoch_sto (s : State) : (s.nextEpoch).sto = s.sto := rfl
@[simp] theorem State.nextEpoch_en (s : State) : (s.nextEpoch).en = s.en := rfl
@[simp] theorem State.nextEpoch_ps (s : State) : (s.nextEpoch).ps = s.ps := rfl
@[simp] theorem State.nextEpoch_baud (s : State) : (s.nextEpoch).baud = s.baud := rfl
@[simp] theorem State.nextEpoch_data (s : State) : (s.nextEpoch).data = s.data := rfl
@[simp] theorem State.nextEpoch_inflight (s : State) : (s.nextEpoch).inflight = s.inflight := rfl
@[simp] theorem State.nextEpoch_queued (s : State) : (s.nextEpoch).queued = s.queued := rfl
@[simp] theorem State.nextEpoch_trace (s : State) : (s.nextEpoch).trace = s.trace := rfl
@[simp] theorem State.nextEpoch_fault (s : State) : (s.nextEpoch).fault = s.fault := rfl
@[simp] theorem State.nextEpoch_refused (s : State) : (s.nextEpoch).refused = s.refused := rfl
@[simp] theorem State.nextEpoch_driver (s : State) : (s.nextEpoch).driver = s.driver := rfl
@[simp] theorem State.nextEpoch_bus (s : State) : (s.nextEpoch).bus = s.bus := rfl
@[simp] theorem State.nextEpoch_tick (s : State) : (s.nextEpoch).tick = s.tick := rfl
@[simp] theorem State.nextEpoch_epoch (s : State) : (s.nextEpoch).epoch = s.epoch + 1 := rfl

/-! ### trigger -/

@[simp] theorem State.trigger_phase (ea sta : Bool) (s : State) : (s.trigger ea sta).phase = s.phase := rfl
@[simp] theorem State.trigger_int (ea sta : Bool) (s : State) : (s.trigger ea sta).int = false := rfl
@[simp] theorem State.trigger_ea (ea sta : Bool) (s : State) : (s.trigger ea sta).ea = ea := rfl
@[simp] theorem State.trigger_sta (ea sta : Bool) (s : State) : (s.trigger ea sta).sta = sta := rfl
@[simp] theorem State.trigger_sto (ea sta : Bool) (s : State) : (s.trigger ea sta).sto = s.sto := rfl
@[simp] theorem State.trigger_en (ea sta : Bool) (s : State) : (s.trigger ea sta).en = true := rfl
@[simp] theorem State.trigger_ps (ea sta : Bool) (s : State) : (s.trigger ea sta).ps = s.ps := rfl
@[simp] theorem State.trigger_baud (ea sta : Bool) (s : State) : (s.trigger ea sta).baud = s.baud := rfl
@[simp] theorem State.trigger_data (ea sta : Bool) (s : State) : (s.trigger ea sta).data = s.data := rfl
@[simp] theorem State.trigger_inflight (ea sta : Bool) (s : State) : (s.trigger ea sta).inflight = s.inflight := rfl
@[simp] theorem State.trigger_queued (ea sta : Bool) (s : State) : (s.trigger ea sta).queued = s.queued := rfl
@[simp] theorem State.trigger_trace (ea sta : Bool) (s : State) : (s.trigger ea sta).trace = s.trace := rfl
@[simp] theorem State.trigger_fault (ea sta : Bool) (s : State) : (s.trigger ea sta).fault = s.fault := rfl
@[simp] theorem State.trigger_refused (ea sta : Bool) (s : State) : (s.trigger ea sta).refused = s.refused := rfl
@[simp] theorem State.trigger_driver (ea sta : Bool) (s : State) : (s.trigger ea sta).driver = s.driver := rfl
@[simp] theorem State.trigger_bus (ea sta : Bool) (s : State) : (s.trigger ea sta).bus = s.bus := rfl
@[simp] theorem State.trigger_tick (ea sta : Bool) (s : State) : (s.trigger ea sta).tick = s.tick := rfl
@[simp] theorem State.trigger_epoch (ea sta : Bool) (s : State) : (s.trigger ea sta).epoch = s.epoch := rfl

/-! ### complete -/

@[simp] theorem State.complete_phase (o : Completion) (s : State) : (s.complete o).phase = o.phase := rfl
@[simp] theorem State.complete_int (o : Completion) (s : State) : (s.complete o).int = true := rfl
@[simp] theorem State.complete_ea (o : Completion) (s : State) : (s.complete o).ea = s.ea := rfl
@[simp] theorem State.complete_sta (o : Completion) (s : State) : (s.complete o).sta = s.sta := rfl
@[simp] theorem State.complete_sto (o : Completion) (s : State) : (s.complete o).sto = s.sto := rfl
@[simp] theorem State.complete_en (o : Completion) (s : State) : (s.complete o).en = s.en := rfl
@[simp] theorem State.complete_ps (o : Completion) (s : State) : (s.complete o).ps = s.ps := rfl
@[simp] theorem State.complete_baud (o : Completion) (s : State) : (s.complete o).baud = s.baud := rfl
@[simp] theorem State.complete_data (o : Completion) (s : State) : (s.complete o).data = o.data := rfl
@[simp] theorem State.complete_inflight (o : Completion) (s : State) : (s.complete o).inflight = none := rfl
@[simp] theorem State.complete_queued (o : Completion) (s : State) : (s.complete o).queued = s.queued := rfl
@[simp] theorem State.complete_trace (o : Completion) (s : State) : (s.complete o).trace = s.trace ++ [o.event] := rfl
@[simp] theorem State.complete_fault (o : Completion) (s : State) : (s.complete o).fault = s.fault := rfl
@[simp] theorem State.complete_refused (o : Completion) (s : State) : (s.complete o).refused = s.refused := rfl
@[simp] theorem State.complete_driver (o : Completion) (s : State) : (s.complete o).driver = s.driver := rfl
@[simp] theorem State.complete_bus (o : Completion) (s : State) : (s.complete o).bus = s.bus := rfl
@[simp] theorem State.complete_tick (o : Completion) (s : State) : (s.complete o).tick = s.tick := rfl
@[simp] theorem State.complete_epoch (o : Completion) (s : State) : (s.complete o).epoch = s.epoch := rfl

end Sys2Proof.Machine
end

