-- ==== Sys2Proof/Laws/Ops.lean ====
section
/-! SUPPORT. What each shared operation of Machine/Ops.lean can do, said once; and host memory. -/

namespace Sys2Proof.Machine

/-! ### Answers -/

@[simp] theorem refuse_ne_next (r : Refusal) (t : State) : refuse r ≠ .next t := by simp [refuse]

@[simp] theorem raiseFault_ne_next (r : Fault) (t : State) : raiseFault r ≠ .next t := by
  simp [raiseFault]

theorem unlessMarked_of_unmarked {s : State} (hf : s.fault = none) (hr : s.refused = none) (k : Answered) :
    unlessMarked s k = k := by
  simp [unlessMarked, hf, hr]

theorem unlessMarked_next_iff {s t : State} {k : Answered} :
    unlessMarked s k = .next t ↔ (s.fault = none ∧ s.refused = none) ∧ k = .next t := by
  unfold unlessMarked
  split
  · simp_all [raiseFault]
  · split <;> simp_all [refuse]

theorem andThen_next_iff {o : Answered} {k : State → Answered} {t : State} :
    andThen o k = .next t ↔ ∃ u, o = .next u ∧ k u = .next t := by
  cases o <;> simp [andThen]

theorem mapNext_next_iff {f : State → State} {o : Answered} {t : State} :
    mapNext f o = .next t ↔ ∃ u, o = .next u ∧ f u = t := by
  simp [mapNext, andThen_next_iff]

@[simp] theorem mapNext_next (f : State → State) (t : State) : mapNext f (.next t) = .next (f t) := rfl

@[simp] theorem mapNext_fault (f : State → State) (r : Fault) : mapNext f (.fault r) = .fault r := rfl

@[simp] theorem mapNext_refused (f : State → State) (r : Refusal) :
    mapNext f (.refused r) = .refused r := rfl

/-! ### Admission -/

theorem hostWrite_next_iff {s t : State} {k : Answered} :
    hostWrite s k = .next t ↔
      (s.fault = none ∧ s.refused = none) ∧ s.inFlight = false ∧ k = .next t := by
  unfold hostWrite
  rw [unlessMarked_next_iff]
  cases s.inFlight <;> simp [refuse]

theorem configWrite_next_iff {s t : State} {k : Answered} :
    configWrite s k = .next t ↔ (s.fault = none ∧ s.refused = none) ∧ s.busy = false ∧ k = .next t := by
  unfold configWrite
  rw [hostWrite_next_iff]
  cases hb : s.busy
  · have : s.inFlight = false := by
      simp only [State.busy, Bool.or_eq_false_iff] at hb
      exact hb.1
    simp [this]
  · simp [refuse]

theorem command_next_iff {c : Command} {s t : State} {k : Answered} :
    command c s k = .next t ↔
      (s.fault = none ∧ s.refused = none) ∧ s.inFlight = false ∧ admitted c s.phase = true ∧
        k = .next t := by
  unfold command
  rw [hostWrite_next_iff]
  cases admitted c s.phase <;> simp [refuse]

theorem withData_next_iff {s t : State} {k : Byte → Answered} :
    withData s k = .next t ↔ ∃ b, s.data = some b ∧ k b = .next t := by
  unfold withData
  split <;> simp_all [raiseFault]

theorem inFlight_eq_false_iff {s : State} :
    s.inFlight = false ↔ s.inflight = none ∧ s.queued = false := by
  simp [State.inFlight]

theorem busy_eq_false_iff {s : State} :
    s.busy = false ↔ s.inflight = none ∧ s.queued = false ∧ s.sto = false := by
  simp [State.busy, State.inFlight, and_assoc]

/-! ### Composite updates -/

/-- START's write puts one command in flight or queues it (R150). -/
theorem beginStart_cases (s : State) :
    (s.sto = true ∧ s.beginStart = { s with queued := true }) ∨
      (s.sto = false ∧ s.beginStart = { s with inflight := some .start }) := by
  cases h : s.sto <;> simp [State.beginStart, h, State.setQueued, State.setInflight]

/-- STOP's write (R152): the trace grows by `Stop` exactly from an owned phase. -/
theorem beginStop_eq (s : State) :
    s.beginStop =
      { s with phase := .idle, sto := true, trace := if owner s.phase then s.trace ++ [.stop] else s.trace } := by
  cases h : owner s.phase <;> simp [State.beginStop, h, State.setPhase, State.setSto, State.emit]

/-- The stop step (R180). -/
theorem stopDone_eq (s : State) :
    s.stopDone =
      { s with
        sto := false
        queued := false
        inflight := if s.queued then some .start else s.inflight } := by
  cases h : s.queued <;> simp [State.stopDone, h, State.setSto, State.setQueued, State.setInflight]

/-- The five writes of a completion (R181). -/
theorem complete_eq (o : Completion) (s : State) :
    s.complete o =
      { s with
        phase := o.phase
        data := o.data
        trace := s.trace ++ [o.event]
        int := true
        inflight := none } := rfl

/-! ### Host memory -/

theorem memRead_memWrite_same (m : List Host.Cell) (a : Nat) (v : Byte) :
    memRead (memWrite m a v) a = some v := by
  induction m with
  | nil => simp [memWrite, memRead]
  | cons c rest ih =>
    obtain ⟨b, w⟩ := c
    simp only [memWrite]
    split
    · simp [memRead]
    · split
      · simp [memRead]
      · simp_all [memRead]

theorem memRead_memWrite_other (m : List Host.Cell) {a b : Nat} (v : Byte) (h : b ≠ a) :
    memRead (memWrite m a v) b = memRead m b := by
  induction m with
  | nil => simp [memWrite, memRead, h]
  | cons c rest ih =>
    obtain ⟨d, w⟩ := c
    simp only [memWrite]
    split
    · simp [memRead, h]
    · split
      · next heq => subst heq; simp [memRead, h]
      · simp [memRead, ih]

theorem risingFrom_memWrite {m : List Host.Cell} {a b : Nat} (v : Byte) (hm : risingFrom a m = true)
    (h : a < b) : risingFrom a (memWrite m b v) = true := by
  induction m generalizing a with
  | nil => simp [memWrite, risingFrom, h]
  | cons c rest ih =>
    obtain ⟨d, w⟩ := c
    simp only [risingFrom, Bool.and_eq_true, decide_eq_true_eq] at hm
    simp only [memWrite]
    split
    · next hb => simp [risingFrom, h, hb, hm.2]
    · split
      · next heq => subst heq; simp [risingFrom, h, hm.2]
      · simp only [risingFrom, Bool.and_eq_true, decide_eq_true_eq]
        exact ⟨hm.1, ih hm.2 (by omega)⟩

/-- Every write keeps the canonical form. -/
theorem memWrite_wf {m : List Host.Cell} (a : Nat) (v : Byte) (hm : Memory.wf m = true) :
    Memory.wf (memWrite m a v) = true := by
  cases m with
  | nil => simp [memWrite, Memory.wf, risingFrom]
  | cons c rest =>
    obtain ⟨d, w⟩ := c
    simp only [Memory.wf] at hm
    simp only [memWrite]
    split
    · next hb => simp [Memory.wf, risingFrom, hb, hm]
    · split
      · next heq => subst heq; simpa [Memory.wf] using hm
      · simp only [Memory.wf]
        exact risingFrom_memWrite v hm (by omega)

end Sys2Proof.Machine
end

