-- ==== Sys2Proof/Laws/Engine.lean ====
section
/-! SUPPORT. What the outcome sets and ENGINE's step can do, said once. -/

namespace Sys2Proof.Machine

/-- Every member of every outcome set (R183): the command and phase it belongs to, and what it leaves. -/
theorem outcome_cases {e : Bool} {c : Cmd} {p : Phase} {d : Option Byte} {a : Answer} {r : Byte}
    {o : Completion} (h : outcome e c p d a r = some o) :
    (a = .success ∧
      ((c = .start ∧ (p = .idle ∨ p = .arbLost) ∧ o = ⟨.started, .start, d⟩) ∨
       (c = .start ∧ p = .mtDataAck ∧ o = ⟨.repStarted, .repStart, d⟩) ∨
       (∃ b, c = .transmit ∧ d = some b ∧ (p = .started ∨ p = .repStarted) ∧
         o = ⟨if slaIsRead b then .mrSlaAck else .mtSlaAck, .byte b .ack, none⟩) ∨
       (∃ b, c = .transmit ∧ d = some b ∧ (p = .mtSlaAck ∨ p = .mtDataAck) ∧
         o = ⟨.mtDataAck, .byte b .ack, none⟩) ∨
       (c = .recvAck ∧ (p = .mrSlaAck ∨ p = .mrDataAck) ∧ o = ⟨.mrDataAck, .recv r .ack, some r⟩) ∨
       (c = .recvNack ∧ (p = .mrSlaAck ∨ p = .mrDataAck) ∧ o = ⟨.mrDataNack, .recv r .nack, some r⟩))) ∨
    (a = .nack ∧ ∃ b, c = .transmit ∧ d = some b ∧
      (((p = .started ∨ p = .repStarted) ∧
         o = ⟨if slaIsRead b then .mrSlaNack else .mtSlaNack, .byte b .nack, none⟩) ∨
       ((p = .mtSlaAck ∨ p = .mtDataAck) ∧ o = ⟨.mtDataNack, .byte b .nack, none⟩))) ∨
    (((a = .lost ∧ o.phase = .arbLost ∧ o.event = .lost) ∨
        (a = .busErr ∧ e = true ∧ o.phase = .busError ∧ o.event = .busErr)) ∧
      ((c = .start ∧ (p = .idle ∨ p = .arbLost ∨ p = .mtDataAck) ∧ o.data = d) ∨
       (c = .transmit ∧ d ≠ none ∧
         (p = .started ∨ p = .repStarted ∨ p = .mtSlaAck ∨ p = .mtDataAck) ∧ o.data = none) ∨
       ((c = .recvAck ∨ c = .recvNack) ∧ (p = .mrSlaAck ∨ p = .mrDataAck) ∧ o.data = some r))) := by
  obtain ⟨op, oe, od⟩ := o
  cases c with
  | start =>
    cases p <;> simp only [outcome, reduceCtorEq] at h <;>
      cases a <;> simp_all [plainRow, failedOutcome]
  | transmit =>
    cases d with
    | none => simp [outcome] at h
    | some b =>
      cases p <;> simp only [outcome, reduceCtorEq] at h <;>
        cases hb : slaIsRead b <;> cases a <;> simp_all [transmitRow, failedOutcome] <;>
        (rintro rfl; simp at h)
  | recvAck =>
    cases p <;> simp only [outcome, reduceCtorEq] at h <;>
      cases a <;> simp_all [plainRow, failedOutcome]
  | recvNack =>
    cases p <;> simp only [outcome, reduceCtorEq] at h <;>
      cases a <;> simp_all [plainRow, failedOutcome]

/-- ENGINE's two steps (R180, R181, R182). -/
theorem engineStep_cases {m : BusMove} {s t : State} (h : s.engineStep m = some t) :
    ∃ a r, m = .complete a r ∧
      ((s.sto = true ∧ t = s.stopDone) ∨
       (s.sto = false ∧ ∃ c o, s.inflight = some c ∧ s.outcome c a r = some o ∧ t = s.complete o)) := by
  cases m with
  | wait => simp [State.engineStep] at h
  | complete a r =>
    refine ⟨a, r, rfl, ?_⟩
    cases hs : s.sto
    · simp only [State.engineStep, State.stopReady, hs, Bool.false_eq_true, if_false] at h
      cases hc : s.inflight with
      | none => simp [hc] at h
      | some c =>
        simp only [hc, Option.map_eq_some_iff] at h
        obtain ⟨o, ho, rfl⟩ := h
        exact .inr ⟨rfl, c, o, rfl, ho, rfl⟩
    · simp only [State.engineStep, State.stopReady, hs, if_true, Option.some.injEq] at h
      exact .inl ⟨rfl, h.symm⟩

end Sys2Proof.Machine
end

