-- ==== Sys2Proof/Laws/Exec.lean ====
section
/-! SUPPORT. When each meaning answers a next state, and which. -/

namespace Sys2Proof.Machine

variable {s t : State}

theorem execRdCtrl_next_iff :
    execRdCtrl s = .next t ↔ (s.fault = none ∧ s.refused = none) ∧ s.readBack s.ctrlByte = t := by
  simp [execRdCtrl, unlessMarked_next_iff]

theorem execRdStatus_next_iff :
    execRdStatus s = .next t ↔ (s.fault = none ∧ s.refused = none) ∧ s.readBack s.statusByte = t := by
  simp [execRdStatus, unlessMarked_next_iff]

theorem execRdBaud_next_iff :
    execRdBaud s = .next t ↔ (s.fault = none ∧ s.refused = none) ∧ s.readBack s.baud = t := by
  simp [execRdBaud, unlessMarked_next_iff]

theorem execRdData_next_iff :
    execRdData s = .next t ↔
      (s.fault = none ∧ s.refused = none) ∧ ∃ b, s.dataByte = some b ∧ s.readBack b = t := by
  unfold execRdData
  rw [unlessMarked_next_iff]
  cases s.dataByte <;> simp [raiseFault]

theorem execWrData_next_iff {v : Byte} :
    execWrData v s = .next t ↔
      (s.fault = none ∧ s.refused = none) ∧ s.inFlight = false ∧ s.setData (some v) = t := by
  simp [execWrData, hostWrite_next_iff, dataOperand]

theorem execWrStatus_next_iff {v : Byte} :
    execWrStatus v s = .next t ↔
      (s.fault = none ∧ s.refused = none) ∧ s.busy = false ∧ s.setPs (v.extractLsb' 0 2) = t := by
  simp [execWrStatus, configWrite_next_iff, statusOperand]

theorem execWrBaud_next_iff {v : Byte} :
    execWrBaud v s = .next t ↔
      (s.fault = none ∧ s.refused = none) ∧ s.busy = false ∧ s.setBaud v = t := by
  simp [execWrBaud, configWrite_next_iff, baudOperand]

theorem execStart_next_iff {ea : Bool} :
    execStart ea s = .next t ↔
      (s.fault = none ∧ s.refused = none) ∧ s.inFlight = false ∧ admitted .start s.phase = true ∧
        (s.trigger ea true).beginStart = t := by
  simp [execStart, command_next_iff]

theorem execRepStart_next_iff {ea : Bool} :
    execRepStart ea s = .next t ↔
      (s.fault = none ∧ s.refused = none) ∧ s.inFlight = false ∧ admitted .repStart s.phase = true ∧
        (s.trigger ea true).setInflight (some .start) = t := by
  simp [execRepStart, command_next_iff]

theorem execStop_next_iff {ea : Bool} :
    execStop ea s = .next t ↔
      (s.fault = none ∧ s.refused = none) ∧ s.inFlight = false ∧ admitted .stop s.phase = true ∧
        (s.trigger ea false).beginStop = t := by
  simp [execStop, command_next_iff]

theorem execTransmitAddr_next_iff {ea : Bool} :
    execTransmitAddr ea s = .next t ↔
      (s.fault = none ∧ s.refused = none) ∧ s.inFlight = false ∧ admitted .transmitAddr s.phase = true ∧
        s.data ≠ none ∧ (s.trigger ea false).setInflight (some .transmit) = t := by
  simp [execTransmitAddr, command_next_iff, withData_next_iff, Option.ne_none_iff_exists']

theorem execTransmitData_next_iff {ea : Bool} :
    execTransmitData ea s = .next t ↔
      (s.fault = none ∧ s.refused = none) ∧ s.inFlight = false ∧ admitted .transmitData s.phase = true ∧
        s.data ≠ none ∧ (s.trigger ea false).setInflight (some .transmit) = t := by
  simp [execTransmitData, command_next_iff, withData_next_iff, Option.ne_none_iff_exists']

theorem execReceiveAck_next_iff :
    execReceiveAck s = .next t ↔
      (s.fault = none ∧ s.refused = none) ∧ s.inFlight = false ∧ admitted .receiveAck s.phase = true ∧
        (s.trigger true false).setInflight (some .recvAck) = t := by
  simp [execReceiveAck, command_next_iff]

theorem execReceiveNack_next_iff :
    execReceiveNack s = .next t ↔
      (s.fault = none ∧ s.refused = none) ∧ s.inFlight = false ∧ admitted .receiveNack s.phase = true ∧
        (s.trigger false false).setInflight (some .recvNack) = t := by
  simp [execReceiveNack, command_next_iff]

theorem execEnable_next_iff {ea : Bool} :
    execEnable ea s = .next t ↔
      (s.fault = none ∧ s.refused = none) ∧ s.inFlight = false ∧
        { s with ea := ea, sta := false, en := true,
                 phase := if s.phase = .off then .idle else s.phase } = t := by
  unfold execEnable
  rw [command_next_iff]
  by_cases h : s.phase = .off <;>
    simp [h, admitted, State.setPhase, State.setEa, State.setSta, State.setEn]

theorem execDisable_next_iff {ea : Bool} :
    execDisable ea s = .next t ↔
      (s.fault = none ∧ s.refused = none) ∧ s.inFlight = false ∧ disableAdmitted s = true ∧
        { s with ea := ea, sta := false, en := false, phase := .off } = t := by
  unfold execDisable
  rw [command_next_iff]
  cases disableAdmitted s <;>
    simp [admitted, refuse, State.setPhase, State.setEa, State.setSta, State.setEn]

/-- A CTRL write that goes on is its selected command's meaning (R107). -/
theorem execWrCtrl_next_iff {v : Byte} :
    execWrCtrl v s = .next t ↔
      ctrlDefect v = none ∧ ∃ c, selectCommand v s.phase = some c ∧ perform c (ctrlEa v) s = .next t := by
  unfold execWrCtrl
  rw [hostWrite_next_iff]
  constructor
  · rintro ⟨-, -, h⟩
    split at h
    · simp [refuse] at h
    · split at h
      · exact ⟨‹_›, _, ‹_›, h⟩
      · simp [refuse] at h
  · rintro ⟨hd, c, hc, hp⟩
    refine ⟨?_, ?_, by simpa [hd, hc] using hp⟩
    all_goals
      cases c <;>
        simp only [perform, execEnable_next_iff, execDisable_next_iff, execStart_next_iff,
          execRepStart_next_iff, execStop_next_iff, execTransmitAddr_next_iff, execTransmitData_next_iff,
          execReceiveAck_next_iff, execReceiveNack_next_iff] at hp <;>
        first | exact hp.1 | exact hp.2.1

/-- A CTRL write that goes on is one of the nine commands' (R76). -/
theorem perform_eq_exec (c : Command) (ea : Bool) (s : State) :
    perform c ea s = exec (commandInstr c ea) s := by
  cases c <;> rfl

end Sys2Proof.Machine
end

