-- ==== Sys2Proof/Laws/PerInstr.lean ====
section
/-! SUPPORT. A fact about every instruction as syntax, one lemma per constructor: its word lies in its row
of spec/opcode_table.json. -/

namespace Sys2Proof

/-- The mask of the instruction's row in the opcode table. -/
def rowMask : Instr → AccessWord
  | .rdBaud | .rdStatus | .rdData | .rdCtrl => 0x700
  | .wrBaud _ | .wrStatus _ | .wrData _ | .wrCtrl _ => 0x700
  | .enable _ | .disable _ | .start _ | .repStart _ | .stop _ => 0x7BF
  | .transmitAddr _ | .transmitData _ => 0x7BF
  | .receiveAck | .receiveNack => 0x7FF

/-- The match of the instruction's row in the opcode table. -/
def rowMatch : Instr → AccessWord
  | .rdBaud => 0x000
  | .rdStatus => 0x100
  | .rdData => 0x200
  | .rdCtrl => 0x300
  | .wrBaud _ => 0x400
  | .wrStatus _ => 0x500
  | .wrData _ => 0x600
  | .wrCtrl _ => 0x700
  | .enable _ => 0x704
  | .disable _ => 0x700
  | .start _ | .repStart _ => 0x7A4
  | .stop _ => 0x794
  | .transmitAddr _ | .transmitData _ => 0x784
  | .receiveAck => 0x7C4
  | .receiveNack => 0x784

namespace Laws.TableRow

/-- The instruction's word matches its row: under the row's mask it is the row's match. -/
def Statement (i : Instr) : Prop := encode i &&& rowMask i = rowMatch i

theorem rdBaud : Statement .rdBaud := by unfold Statement; decide
theorem rdStatus : Statement .rdStatus := by unfold Statement; decide
theorem rdData : Statement .rdData := by unfold Statement; decide
theorem rdCtrl : Statement .rdCtrl := by unfold Statement; decide
theorem wrBaud (v : Byte) : Statement (.wrBaud v) := by unfold Statement; revert v; decide
theorem wrStatus (v : Byte) : Statement (.wrStatus v) := by unfold Statement; revert v; decide
theorem wrData (v : Byte) : Statement (.wrData v) := by unfold Statement; revert v; decide
theorem wrCtrl (v : Byte) : Statement (.wrCtrl v) := by unfold Statement; revert v; decide
theorem enable (ea : Bool) : Statement (.enable ea) := by unfold Statement; revert ea; decide
theorem disable (ea : Bool) : Statement (.disable ea) := by unfold Statement; revert ea; decide
theorem start (ea : Bool) : Statement (.start ea) := by unfold Statement; revert ea; decide
theorem repStart (ea : Bool) : Statement (.repStart ea) := by unfold Statement; revert ea; decide
theorem stop (ea : Bool) : Statement (.stop ea) := by unfold Statement; revert ea; decide
theorem transmitAddr (ea : Bool) : Statement (.transmitAddr ea) := by unfold Statement; revert ea; decide
theorem transmitData (ea : Bool) : Statement (.transmitData ea) := by unfold Statement; revert ea; decide
theorem receiveAck : Statement .receiveAck := by unfold Statement; decide
theorem receiveNack : Statement .receiveNack := by unfold Statement; decide

end Laws.TableRow

end Sys2Proof
end

