-- ==== Sys2Proof/Laws/Procedures.lean ====
section
/-! SUPPORT. What giving up an operation leaves, said once. -/

namespace Sys2Proof.Machine

theorem inProgress_append_ret (body later : List HostOp) (r : Result) :
    inProgress (body ++ .ret r :: later) = true := by
  simp [inProgress, HostOp.isRet]

/-- The operation in progress is dropped up to and with its end; what comes after it stays (R240). -/
theorem dropOperation_append_ret {body : List HostOp} (later : List HostOp) (r : Result)
    (hb : inProgress body = false) : dropOperation (body ++ .ret r :: later) = later := by
  have key : (body ++ .ret r :: later).dropWhile (fun o => !o.isRet) = .ret r :: later := by
    induction body with
    | nil => simp [HostOp.isRet]
    | cons o body ih =>
      simp only [inProgress, List.any_cons, Bool.or_eq_false_iff] at hb
      simpa [hb.1] using ih hb.2
  rw [dropOperation, if_pos (inProgress_append_ret body later r), key, List.tail_cons]

/-- With no operation in progress nothing is dropped (log entry 18). -/
theorem dropOperation_of_none {ops : List HostOp} (h : inProgress ops = false) : dropOperation ops = ops := by
  simp [dropOperation, h]

end Sys2Proof.Machine
end

