-- ==== Sys2Proof/Laws/Step.lean ====
section
/-! SUPPORT. What a step can do, said once: an ENGINE step, or a HOST step, which is one instruction's
meaning and a change of the HOST, or a change of the HOST alone. -/

namespace Sys2Proof.Machine

/-- An access is its instruction's meaning; a write advances the epoch. -/
theorem hostAccess_next_cases {i : Instr} {s u : State} (h : hostAccess i s = .next u) :
    ∃ v, exec i s = .next v ∧ (u = v ∨ u = v.nextEpoch) := by
  cases i <;>
    first
    | exact ⟨u, h, .inl rfl⟩
    | (obtain ⟨v, hv, rfl⟩ := mapNext_next_iff.mp h; exact ⟨v, hv, .inr rfl⟩)

/-- The HOST's memory after its own part of an operation. -/
abbrev HostMemStep (s t : State) : Prop :=
  t.driver.mem = s.driver.mem ∨ ∃ a b, t.driver.mem = memWrite s.driver.mem a b

/-- What a HOST step can do. -/
theorem hostStep_cases {s u : State} (h : hostStep s = .next u) :
    (∃ d, u = s.setDriver d ∧ d.mem = s.driver.mem) ∨
      ∃ i v, exec i s = .next v ∧
        ∃ d, (u = v.setDriver d ∨ u = v.nextEpoch.setDriver d) ∧ HostMemStep v u := by
  unfold hostStep at h
  split at h
  · simp only [Host.Outcome.next.injEq] at h
    exact .inl ⟨s.driver, h ▸ rfl, rfl⟩
  · next op rest hops =>
    have access : ∀ (i : Instr) (f : State → State),
        (∀ v, ∃ d, f v = v.setDriver d ∧ (HostMemStep v (f v))) →
        mapNext f (hostAccess i s) = .next u →
        ∃ i v, exec i s = .next v ∧
          ∃ d, (u = v.setDriver d ∨ u = v.nextEpoch.setDriver d) ∧ HostMemStep v u := by
      intro i f hf hm
      obtain ⟨v, hv, rfl⟩ := mapNext_next_iff.mp hm
      obtain ⟨w, hw, rfl | rfl⟩ := hostAccess_next_cases hv
      · obtain ⟨d, hd, hmem⟩ := hf v
        exact ⟨i, v, hw, d, .inl hd, hmem⟩
      · obtain ⟨d, hd, hmem⟩ := hf w.nextEpoch
        exact ⟨i, w, hw, d, .inr hd, hmem⟩
    unfold hostOp at h
    split at h
    · exact .inr (access _ _ (by exact fun v => ⟨_, rfl, .inl rfl⟩) h)
    · simp only [Host.Outcome.next.injEq] at h
      exact .inl ⟨_, h.symm, rfl⟩
    · exact .inr (access _ _ (by exact fun v => ⟨_, rfl, .inl rfl⟩) h)
    · exact .inr (access _ _ (by exact fun v => ⟨_, rfl, .inl rfl⟩) h)
    · split at h
      · exact .inr (access _ _ (by exact fun v => ⟨_, rfl, .inl rfl⟩) h)
      · simp [refuse] at h
    · exact .inr (access _ _ (by exact fun v => ⟨_, rfl, .inr ⟨_, _, rfl⟩⟩) h)
    · split at h
      · simp only [Host.Outcome.next.injEq] at h
        exact .inl ⟨_, h.symm, rfl⟩
      · simp [refuse] at h
    · simp only [Host.Outcome.next.injEq] at h
      exact .inl ⟨_, h.symm, rfl⟩

/-- What a step can do (R5, R60, R182): ENGINE's step, or the HOST's. -/
theorem step_cases {s t : State} (h : step s = .next t) :
    (s.fault = none ∧ s.refused = none) ∧
      ((s.engineReady = true ∧
          ∃ u, s.takeBusMove.engineStep s.busMove = some u ∧ t = u.nextEpoch.nextTick) ∨
       ∃ s' u, (s' = s ∧ s.engineReady = false ∨
            s' = s.takeBusMove ∧ s.engineReady = true ∧ s.takeBusMove.engineStep s.busMove = none) ∧
          hostStep s' = .next u ∧ t = u.nextTick) := by
  unfold step advance at h
  rw [unlessMarked_next_iff] at h
  obtain ⟨hm, h⟩ := h
  refine ⟨hm, ?_⟩
  split at h
  · next hr =>
    split at h
    · next u hu =>
      simp only [Host.Outcome.next.injEq] at h
      exact .inl ⟨hr, u, hu, h.symm⟩
    · next hu =>
      obtain ⟨u, hu', rfl⟩ := mapNext_next_iff.mp h
      exact .inr ⟨_, u, .inr ⟨rfl, hr, hu⟩, hu', rfl⟩
  · next hr =>
    obtain ⟨u, hu', rfl⟩ := mapNext_next_iff.mp h
    exact .inr ⟨_, u, .inl ⟨rfl, by simpa using hr⟩, hu', rfl⟩

end Sys2Proof.Machine
end

