-- ==== Sys2Proof/Laws/Run.lean ====
section
/-! SUPPORT. Runs: one step at the front, two runs joined, the run of a state with nothing left to do, and the
run of a HOST that polls. -/

namespace Sys2Proof.Machine

theorem core_run_of_next (M : Host.Core) (n : Nat) {s t : M.State} (h : M.step s = .next t) :
    M.run (n + 1) s = M.run n t := by
  simp only [Host.Core.run, h]

theorem core_run_of_fault (M : Host.Core) (n : Nat) {s : M.State} {r : M.Fault} (h : M.step s = .fault r) :
    M.run (n + 1) s = .fault r := by
  simp only [Host.Core.run, h]

theorem core_run_of_refused (M : Host.Core) (n : Nat) {s : M.State} {r : M.Refusal}
    (h : M.step s = .refused r) : M.run (n + 1) s = .refused r := by
  simp only [Host.Core.run, h]

/-- The model's runs are the host's. -/
theorem runSteps_eq_core_run (n : Nat) (s : State) : runSteps n s = Host.Core.run Sys2Proof.core n s := by
  induction n generalizing s with
  | zero => rfl
  | succ n ih =>
    rw [runSteps]
    cases hs : step s with
    | next t => exact (ih t).trans (core_run_of_next Sys2Proof.core n hs).symm
    | fault r => exact (core_run_of_fault Sys2Proof.core n hs).symm
    | refused r => exact (core_run_of_refused Sys2Proof.core n hs).symm

theorem reachedIn_succ_iff {n : Nat} {s t : State} :
    ReachedIn (n + 1) s t ↔ ∃ u, step s = .next u ∧ ReachedIn n u t := by
  unfold ReachedIn
  rw [runSteps]
  cases step s <;> simp

theorem reachedIn_trans {m n : Nat} {s t u : State} (h₁ : ReachedIn m s t) (h₂ : ReachedIn n t u) :
    ReachedIn (m + n) s u := by
  induction m generalizing s with
  | zero =>
    cases h₁
    rwa [Nat.zero_add]
  | succ m ih =>
    obtain ⟨v, hv, hvt⟩ := reachedIn_succ_iff.mp h₁
    rw [Nat.add_right_comm]
    exact reachedIn_succ_iff.mpr ⟨v, hv, ih hvt⟩

theorem reachedIn_unique {n : Nat} {s t u : State} (h₁ : ReachedIn n s t) (h₂ : ReachedIn n s u) : t = u := by
  rw [ReachedIn, h₁] at h₂
  exact Host.Outcome.next.inj h₂

/-- A run of `m + n` steps passes through a state after `m`. -/
theorem reachedIn_split {m n : Nat} {s u : State} (h : ReachedIn (m + n) s u) :
    ∃ t, ReachedIn m s t ∧ ReachedIn n t u := by
  induction m generalizing s with
  | zero => exact ⟨s, rfl, by rwa [Nat.zero_add] at h⟩
  | succ m ih =>
    rw [Nat.add_right_comm] at h
    obtain ⟨v, hv, hvu⟩ := reachedIn_succ_iff.mp h
    obtain ⟨t, ht, htu⟩ := ih hvu
    exact ⟨t, reachedIn_succ_iff.mpr ⟨v, hv, ht⟩, htu⟩

/-! ### BusLive -/

theorem StaysEnabled.ready {t : State} (h : StaysEnabled t) : t.engineReady = true := by
  obtain ⟨u, hu, hr⟩ := h 0
  cases hu
  exact hr

/-- The step is taken at once, or at least later, wherever one is enabled: more than BusLive asks. -/
theorem busLive_of_taken {s : State}
    (h : ∀ n t, ReachedIn n s t → t.engineReady = true → ∃ m u, ReachedIn m t u ∧ EngineMoves u) :
    BusLive s :=
  fun n t ht hs => h n t ht hs.ready

/-- A run that stops at a fault or a refusal meets BusLive (R184, R11). -/
theorem busLive_of_stops {s : State} {k : Nat} (h : ∀ u, ¬ ReachedIn k s u) : BusLive s := by
  intro n t ht hs
  obtain ⟨u, hu, -⟩ := hs k
  have hnk := reachedIn_trans ht hu
  rw [Nat.add_comm] at hnk
  obtain ⟨v, hv, -⟩ := reachedIn_split hnk
  exact absurd hv (h v)

/-- A state in which no agent has anything to do. -/
abbrev Quiescent (s : State) : Prop :=
  Unmarked s ∧ s.driver.ops = [] ∧ s.sto = false ∧ s.inflight = none

theorem quiescent_run {s : State} (h : Quiescent s) (n : Nat) : ∃ t, ReachedIn n s t ∧ Quiescent t := by
  induction n generalizing s with
  | zero => exact ⟨s, rfl, h⟩
  | succ n ih =>
    obtain ⟨⟨hf, hr⟩, ho, hs, hi⟩ := h
    have hstep : step s = .next s.nextTick := by
      simp [step, advance, unlessMarked_of_unmarked hf hr, State.engineReady, State.stopReady,
        State.completionReady, hs, hi, hostStep, ho]
    obtain ⟨t, ht, hq⟩ := ih (s := s.nextTick) ⟨⟨hf, hr⟩, ho, hs, hi⟩
    exact ⟨t, reachedIn_succ_iff.mpr ⟨_, hstep, ht⟩, hq⟩

/-! ### Polling -/

/-- Where BUS lets no ENGINE step happen, a step is the HOST's, up to the script entry BUS's choice took. -/
theorem step_of_not_engineMoves {s : State} (hm : Unmarked s) (he : ¬ EngineMoves s) :
    step s = mapNext State.nextTick (hostStep (if s.engineReady then s.takeBusMove else s)) := by
  unfold step advance
  rw [unlessMarked_of_unmarked hm.1 hm.2]
  cases hr : s.engineReady
  · simp
  · have hn : s.takeBusMove.engineStep s.busMove = none := by simpa [EngineMoves, hr] using he
    simp [hn]

/-- Where BUS lets ENGINE move, a step is ENGINE's. -/
theorem step_of_engineMoves {s : State} (hm : Unmarked s) (he : EngineMoves s) :
    ∃ u, s.takeBusMove.engineStep s.busMove = some u ∧ step s = .next u.nextEpoch.nextTick := by
  obtain ⟨hr, hs⟩ := he
  obtain ⟨u, hu⟩ := Option.isSome_iff_exists.mp hs
  refine ⟨u, hu, ?_⟩
  unfold step advance
  rw [unlessMarked_of_unmarked hm.1 hm.2]
  simp [hr, hu]

/-- Bit 7 of a CTRL read is INT (R103). -/
theorem ctrlByte_bit7 (s : State) : s.ctrlByte.getLsbD 7 = s.int := by
  unfold State.ctrlByte
  generalize s.int = a, s.ea = b, s.sta = c, s.sto = d, s.en = e
  revert a b c d e
  decide

/-- One read of the unbounded poll (R225). -/
theorem hostStep_poll {s : State} {rest : List HostOp} (hm : Unmarked s)
    (ho : s.driver.ops = .poll none :: rest) :
    hostStep s = .next ((s.readBack s.ctrlByte).setOps (if s.int then rest else .poll none :: rest)) := by
  have hr : hostAccess .rdCtrl s = .next (s.readBack s.ctrlByte) := unlessMarked_of_unmarked hm.1 hm.2 _
  have hv : (s.readBack s.ctrlByte).lastRead = s.ctrlByte := rfl
  simp only [hostStep, ho, hostOp, hr, mapNext, andThen, hv, afterPoll, ctrlByte_bit7]

/-- A poll with INT 0 that ENGINE does not interrupt changes nothing but the byte read, the script and `tick`. -/
theorem step_poll_waits {s : State} {rest : List HostOp} (hm : Unmarked s) (hint : s.int = false)
    (ho : s.driver.ops = .poll none :: rest) (he : ¬ EngineMoves s) :
    step s = .next { s with
      driver := { s.driver with value := some s.ctrlByte }
      bus := if s.engineReady then s.bus.tail else s.bus
      tick := s.tick + 1 } := by
  rw [step_of_not_engineMoves hm he]
  cases hr : s.engineReady
  · have h := hostStep_poll hm ho
    rw [if_neg (by simp [hint]), ← ho] at h
    simp only [Bool.false_eq_true, if_false, h]
    rfl
  · have h := hostStep_poll (s := s.takeBusMove) hm ho
    have hi : s.takeBusMove.int = false := hint
    rw [if_neg (by simp [hi]), ← ho] at h
    simp only [if_true, h]
    rfl

/-- A HOST that polls comes to the ENGINE step that is taken later on its run, with nothing but the byte read,
the script and `tick` changed on the way. -/
theorem poll_reaches_engine {rest : List HostOp} {m : Nat} {s u : State} (hm : Unmarked s)
    (hint : s.int = false) (ho : s.driver.ops = .poll none :: rest) (hu : ReachedIn m s u)
    (he : EngineMoves u) :
    ∃ n x b k, EngineMoves { s with driver := { s.driver with value := x }, bus := b, tick := k } ∧
      ReachedIn n s { s with driver := { s.driver with value := x }, bus := b, tick := k } := by
  induction m generalizing s with
  | zero =>
    have hsu : s = u := Host.Outcome.next.inj hu
    subst hsu
    exact ⟨0, s.driver.value, s.bus, s.tick, he, rfl⟩
  | succ m ih =>
    by_cases hs : EngineMoves s
    · exact ⟨0, s.driver.value, s.bus, s.tick, hs, rfl⟩
    · have hstep := step_poll_waits hm hint ho hs
      obtain ⟨v, hv, hvu⟩ := reachedIn_succ_iff.mp hu
      cases hstep.symm.trans hv
      obtain ⟨n, x, b, k, hx, hr⟩ := ih (s := { s with
        driver := { s.driver with value := some s.ctrlByte }
        bus := if s.engineReady then s.bus.tail else s.bus
        tick := s.tick + 1 }) hm hint ho hvu
      exact ⟨n + 1, x, b, k, hx, reachedIn_succ_iff.mpr ⟨_, hstep, hr⟩⟩

end Sys2Proof.Machine
end

