-- ==== Sys2Proof/Tests/Slice0.lean ====
section
/-! SUPPORT. The model's own tests. Expected results are from spec/95_test_vectors.md (RA, V, CM, S, HP name
its vectors) and from the rules cited; then one witness per statement with hypotheses. -/

namespace Sys2Proof.Tests

open Sys2Proof.Machine

/-- What `f` sees of an answer's next state. -/
def seen {α : Type} (f : State → α) : Host.Outcome State Fault Refusal → Option α
  | .next t => some (f t)
  | .fault _ => none
  | .refused _ => none

/-- The reason an answer stops with. -/
def stopOf : Host.Outcome State Fault Refusal → Option (Fault ⊕ Refusal)
  | .next _ => none
  | .fault r => some (.inl r)
  | .refused r => some (.inr r)

/-- An enabled block that has completed a phase: INT = 1, nothing in flight. -/
def at_ (p : Phase) (d : Option Byte) : State := { State.reset with phase := p, en := true, int := true, data := d }

/-- An enabled idle block. -/
def idleState : State := { State.reset with phase := .idle, en := true }

/-- A stop is pending. -/
def stopPending : State := { idleState with sto := true }

/-- A START is in flight. -/
def startInFlight : State := { idleState with sta := true, inflight := some .start }

/-- The CTRL byte of a next state, its phase and its trace. -/
def view (t : State) : Byte × Phase × List BusEvent := (t.ctrlByte, t.phase, t.trace)

/-! ### WellFormed refuses each ill-formed value (R75) -/

theorem test_wellFormed_reservedBit : ¬ (Instr.wrCtrl 0x0C).WellFormed := by decide
theorem test_wellFormed_requestWithoutTrigger : ¬ (Instr.wrCtrl 0x24).WellFormed := by decide
theorem test_wellFormed_triggerWhileDisabled : ¬ (Instr.wrCtrl 0x80).WellFormed := by decide
theorem test_wellFormed_startAndStop : ¬ (Instr.wrCtrl 0xB4).WellFormed := by decide
theorem test_wellFormed_start : (Instr.wrCtrl 0xA4).WellFormed := by decide

/-! ### Words written out bit by bit: W, REG, VAL (R70), VAL of CTRL as R73 -/

theorem test_decode_rdBaud : decode .off 0b0_00_00000000 = .rdBaud := by decide
theorem test_decode_rdStatus : decode .off 0b0_01_00000000 = .rdStatus := by decide
theorem test_decode_rdData : decode .off 0b0_10_00000000 = .rdData := by decide
theorem test_decode_rdCtrl : decode .off 0b0_11_10100100 = .rdCtrl := by decide
theorem test_decode_wrBaud : decode .off 0b1_00_00100000 = .wrBaud 0x20 := by decide
theorem test_decode_wrStatus : decode .off 0b1_01_00010010 = .wrStatus 0x12 := by decide
theorem test_decode_wrData : decode .off 0b1_10_11111111 = .wrData 0xFF := by decide
theorem test_decode_wrCtrl : decode .off 0b1_11_11111111 = .wrCtrl 0xFF := by decide
theorem test_decode_enable : decode .off 0b1_11_01000100 = .enable true := by decide
theorem test_decode_disable : decode .idle 0b1_11_00000000 = .disable false := by decide
theorem test_decode_start : decode .idle 0b1_11_10100100 = .start false := by decide
theorem test_decode_repStart : decode .mtDataAck 0b1_11_11100100 = .repStart true := by decide
theorem test_decode_stop : decode .mtDataAck 0b1_11_10010100 = .stop false := by decide
theorem test_decode_transmitAddr : decode .repStarted 0b1_11_10000100 = .transmitAddr false := by decide
theorem test_decode_transmitData : decode .mtSlaAck 0b1_11_11000100 = .transmitData true := by decide
theorem test_decode_receiveAck : decode .mrSlaAck 0b1_11_11000100 = .receiveAck := by decide
theorem test_decode_receiveNack : decode .mrDataAck 0b1_11_10000100 = .receiveNack := by decide
theorem test_decode_tooWide : decodeNat .off 0x800 = .widerThanAccessWord := by decide
theorem test_tableWord : decodeTableWord 16 0x704 = some (.enable false) := by decide

/-! ### One step each -/

/-- RA1, RA2, RA3 and RA11. -/
theorem test_rdCtrl_reset : seen (·.driver.value) (exec .rdCtrl State.reset) = some (some 0x00) := by decide
theorem test_rdCtrl_inFlight : seen (·.driver.value) (exec .rdCtrl startInFlight) = some (some 0x24) := by decide
theorem test_rdStatus_reset : seen (·.driver.value) (exec .rdStatus State.reset) = some (some 0xF8) := by decide
/-- RA9. -/
theorem test_rdStatus_busError :
    seen (·.driver.value) (exec .rdStatus { at_ .busError none with ps := 3 }) = some (some 0x03) := by decide
theorem test_rdBaud : seen (·.driver.value) (exec .rdBaud { idleState with baud := 0xFF }) = some (some 0xFF) := by
  decide
/-- RA4 and RA17. -/
theorem test_rdData_unwritten : stopOf (exec .rdData State.reset) = some (.inl .dataUnwritten) := by decide
theorem test_rdData : seen (·.driver.value) (exec .rdData (at_ .mrDataNack (some 0x5A))) = some (some 0x5A) := by
  decide
/-- RA15, RA6, RA14, RA16. -/
theorem test_wrBaud_stopPending : stopOf (exec (.wrBaud 0x10) stopPending) = some (.inr .configWhileBusy) := by
  decide
theorem test_wrStatus : seen State.statusByte (exec (.wrStatus 0xFF) idleState) = some 0xFB := by decide
theorem test_wrData_inFlight : stopOf (exec (.wrData 0x00) startInFlight) = some (.inr .writeWhileInFlight) := by
  decide
theorem test_wrData_stopPending :
    seen (fun t => (t.data, t.ctrlByte)) (exec (.wrData 0x10) stopPending) = some (some 0x10, 0x14) := by decide
/-- V7 and V23. -/
theorem test_wrCtrl_firstCheck : stopOf (exec (.wrCtrl 0xBC) idleState) = some (.inr .reservedBit) := by decide
theorem test_wrCtrl_transmit :
    seen State.ctrlByte (exec (.wrCtrl 0xC4) (at_ .mtSlaAck (some 1))) = some 0x44 := by decide
/-- V10. -/
theorem test_enable : seen view (exec (.enable true) State.reset) = some (0x44, .idle, []) := by decide
/-- V11 and V12. -/
theorem test_disable : seen view (exec (.disable false) idleState) = some (0x00, .off, []) := by decide
theorem test_disable_stopPending :
    stopOf (exec (.disable false) stopPending) = some (.inr .disableWhileActive) := by decide
/-- CM22 and V17. -/
theorem test_start_queued :
    seen (fun t => (t.ctrlByte, t.queued, t.inflight)) (exec (.start false) stopPending) =
      some (0x34, true, none) := by decide
theorem test_start_notAdmitted : stopOf (exec (.start false) (at_ .mtSlaAck none)) = some (.inr .notAdmitted) := by
  decide
/-- P2 step 12. -/
theorem test_repStart :
    seen (fun t => (t.ctrlByte, t.phase, t.inflight)) (exec (.repStart false) (at_ .mtDataAck none)) =
      some (0x24, .mtDataAck, some .start) := by decide
/-- CM16 and CM19. -/
theorem test_stop : seen view (exec (.stop false) (at_ .mtDataAck none)) = some (0x14, .idle, [.stop]) := by decide
theorem test_stop_notOwner : seen view (exec (.stop false) (at_ .arbLost none)) = some (0x14, .idle, []) := by
  decide
/-- R107: 0x94 and 0xD4 in Idle take EA from the value. Vectors S1 and S3: with EA 0 held 0x94 gives CTRL 0x14,
and a second one changes nothing (R59). -/
theorem test_stop_idle :
    seen view (exec (.wrCtrl 0x94) { idleState with ea := true }) = some (0x14, .idle, []) ∧
      seen view (exec (.wrCtrl 0xD4) idleState) = some (0x54, .idle, []) ∧
      seen id (exec (.wrCtrl 0x94) idleState) = some stopPending ∧
      seen id (exec (.wrCtrl 0x94) stopPending) = some stopPending := by decide
/-- V35 and P1 step 9. -/
theorem test_transmitAddr_unwritten :
    stopOf (exec (.transmitAddr false) (at_ .started none)) = some (.inl .dataUnwritten) := by decide
theorem test_transmitAddr :
    seen State.ctrlByte (exec (.transmitAddr false) (at_ .started (some 0xA0))) = some 0x04 := by decide
/-- V28, as the row: after a NACK no transmit. -/
theorem test_transmitData_afterNack :
    stopOf (exec (.transmitData false) (at_ .mtSlaNack (some 1))) = some (.inr .notAdmitted) := by decide
/-- P5 step 8 and step 16. -/
theorem test_receiveAck :
    seen (fun t => (t.ctrlByte, t.inflight)) (exec .receiveAck (at_ .mrSlaAck none)) =
      some (0x44, some .recvAck) := by decide
theorem test_receiveNack :
    seen (fun t => (t.ctrlByte, t.inflight)) (exec .receiveNack (at_ .mrDataAck none)) =
      some (0x04, some .recvNack) := by decide

/-! ### ENGINE (CM1, CM7, CM12, CM13, CM15, CM17) -/

/-- A command is in flight in a phase, with DATA, and BUS's next choice is made. -/
def flying (p : Phase) (d : Option Byte) (c : Cmd) (m : BusMove) : State :=
  { at_ p d with int := false, inflight := some c, bus := [m] }

theorem test_complete_start :
    seen view (step { flying .idle none .start (.complete .success 0) with sta := true }) =
      some (0xA4, .started, [.start]) := by decide
theorem test_complete_addressNack :
    seen (fun t => (t.phase, t.data, t.trace)) (step (flying .started (some 0xA1) .transmit (.complete .nack 0))) =
      some (.mrSlaNack, none, [.byte 0xA1 .nack]) := by decide
theorem test_complete_repStart_lost :
    seen (fun t => (t.phase, t.data, t.trace)) (step (flying .mtDataAck (some 0x77) .start (.complete .lost 0))) =
      some (.arbLost, some 0x77, [.lost]) := by decide
theorem test_complete_receive :
    seen (fun t => (t.phase, t.data, t.trace)) (step (flying .mrSlaAck none .recvAck (.complete .success 0x11))) =
      some (.mrDataAck, some 0x11, [.recv 0x11 .ack]) := by decide
theorem test_complete_receive_lost :
    seen (fun t => (t.phase, t.data, t.trace)) (step (flying .mrSlaAck none .recvNack (.complete .lost 0x9C))) =
      some (.arbLost, some 0x9C, [.lost]) := by decide
theorem test_stopStep :
    seen (fun t => (t.ctrlByte, t.statusByte)) (step { stopPending with bus := [.complete .success 0] }) =
      some (0x04, 0xF8) := by decide
/-- A start has no Nack member (R183): BUS naming it lets no step happen. -/
theorem test_noNackOfAStart : (flying .idle none .start .wait).engineStep (.complete .nack 0) = none := by decide
/-- R183: without ENV_BUS_ERROR there is no BusError member. -/
theorem test_noBusError : outcome false .transmit .started (some 0) .busErr 0 = none := by decide

/-! ### The status decoder (95, 2.5), the address byte (2.4), the trace grammar (R201) -/

theorem test_decodeStatus_prescaler : decodeStatus 0x0B = .start := by decide
theorem test_decodeStatus_bit2 : decodeStatus 0x5F = .dataRxNack := by decide
theorem test_decodeStatus_idle : decodeStatus 0xFB = .unrecognized 0xF8 := by decide
theorem test_check : checkStatus 0x18 0x19 = .success ∧ checkStatus 0x08 0x19 = .error := by decide
theorem test_slaByte : slaR 0x68 = 0xD1 ∧ slaW 0x3C = 0x78 ∧ slaR 0x7F = 0xFF := by decide
/-- The trace of scenario B. -/
theorem test_grammar_scenarioB :
    expectAfter [.start, .byte 0xD0 .ack, .byte 0x00 .ack, .repStart, .byte 0xD1 .ack, .recv 0x5A .nack, .stop] =
      some .between := by decide
/-- No Stop follows Lost (R201). -/
theorem test_grammar_noStopAfterLost : expectAfter [.start, .lost, .stop] = none := by decide

/-! ### The HOST -/

/-- The parameters of P1. -/
def params : HostParams where
  uniformStop := false
  pollBound := none
  divisor := 0x20
  prescaler := 0

/-- `s` with the HOST's operations. -/
def hosting (s : State) (ops : List HostOp) : State := { s with driver := { s.driver with ops := ops } }

/-- P1 steps 4 to 16, with the end of the procedure. -/
theorem test_expand_write :
    expand params (.write 0x50 0x3D) =
      [.access 0x7A4, .poll none, .check 0x08 false, .access 0x6A0, .access 0x784, .poll none, .check 0x18 true,
        .access 0x63D, .access 0x784, .poll none, .check 0x28 true, .access 0x794, .ret .success] := by decide
/-- P5: the accesses of two receives. -/
theorem test_expand_receives :
    receiveOps params 40 2 =
      [.access 0x7C4, .poll none, .storeData 40, .check 0x50 true,
        .access 0x784, .poll none, .storeData 41, .check 0x58 true] := by decide
/-- HP10, HP11. -/
theorem test_readMulti_zero :
    stopOf (step (hosting idleState [.call params (.readMulti 0x50 ⟨40, 3⟩ 0)])) =
      some (.inr .hostPrecondition) := by decide
theorem test_probe_wide :
    stopOf (step (hosting idleState [.call params (.probe 0x80)])) = some (.inr .hostPrecondition) := by decide
/-- HP15: the bound expires, Error without a stop. -/
theorem test_poll_timeout :
    seen (·.driver.ops) (step (hosting { startInFlight with bus := [.wait] }
      [.poll (some 1), .check 0x08 false, .ret .success])) = some [.ret .error] := by decide
/-- P4 step 7: 0x20 where 0x18 is expected; the STOP is next. -/
theorem test_check_fails :
    seen (·.driver.ops) (step (hosting (at_ .mtSlaNack none) [.check 0x18 true, .access 0x794, .ret .success])) =
      some [.access 0x794, .ret .error] := by decide
/-- Outside any operation a failed check drops nothing (log entry 18). -/
theorem test_check_alone :
    seen (·.driver.ops) (step (hosting (at_ .mtSlaNack none) [.check 0x18 false, .call params .init])) =
      some [.ret .error, .call params .init] := by decide
/-- The first step of a run: with nothing placed the machine idles; with a word placed it runs that. -/
theorem test_reset_idles : seen (fun t => { t with tick := 0 }) (step State.reset) = some State.reset := by decide
theorem test_placed_runs : seen view (step (State.reset.withFetchWord 16 0x704)) = some (0x04, .idle, []) := by decide
/-- Memory stays in its form. -/
theorem test_memWrite : memWrite [(3, 1), (7, 2)] 5 9 = [(3, 1), (5, 9), (7, 2)] := by decide

/-! ### Witnesses: a state and operands that meet every hypothesis of each statement -/

theorem witness_StepRunsTheFetchedAccess :
    Unmarked (hosting startInFlight [.access 0x300]) ∧ ¬ EngineMoves (hosting State.reset [.access 0x7FF]) ∧
      ¬ EngineMoves (hosting { startInFlight with bus := [.wait] } [.access 0x300]) := by decide

theorem witness_PlacedAccessRunsInTheNextStep :
    Unmarked startInFlight ∧ (0x7FF : Nat) < 2 ^ 11 ∧ 2 ^ 11 ≤ (0x800 : Nat) := by decide

theorem witness_reads : Unmarked State.reset ∧ Unmarked startInFlight := by decide

theorem witness_DataReadReturnsDataOrFaults :
    startInFlight.inflight ≠ none ∧ (at_ .mrDataNack (some 0xFF)).data = some 0xFF ∧
      (at_ .mrDataNack (some 0xFF)).inflight = none ∧ State.reset.data = none := by decide

theorem witness_StatusReadShowsTheCodeTable :
    (at_ .mtSlaAck none).inflight = none ∧ (at_ .mtSlaAck none).queued = false ∧
      (at_ .mtSlaAck none).sto = false ∧ Unmarked (at_ .mtSlaAck none) := by decide

theorem witness_ReadsAreRepeatable :
    Instr.rdStatus ∈ [Instr.rdBaud, .rdStatus, .rdData, .rdCtrl] ∧
      (seen id (exec .rdCtrl startInFlight)).isSome = true := by decide

theorem witness_writes :
    Unmarked idleState ∧ idleState.inflight = none ∧ idleState.queued = false ∧ idleState.sto = false ∧
      stopPending.sto = true ∧ stopPending.inflight = none ∧ stopPending.queued = false ∧
      startInFlight.inflight ≠ none := by decide

theorem witness_WritesInFlightAreRefusedFirst :
    Unmarked startInFlight ∧ startInFlight.inflight ≠ none ∧
      Instr.wrCtrl 0x0F ∉ [Instr.rdBaud, .rdStatus, .rdData, .rdCtrl] ∧
      Unmarked { stopPending with queued := true } := by decide

/-- One value per check of R75, and one that passes. -/
theorem witness_ControlValueChecksComeInOrder :
    (0x01 : Byte).getLsbD 0 = true ∧
      ((0x10 : Byte).getLsbD 7 = false ∧ (0x10 : Byte).getLsbD 4 = true) ∧
      ((0x80 : Byte).getLsbD 7 = true ∧ (0x80 : Byte).getLsbD 2 = false) ∧
      ((0xB4 : Byte).getLsbD 5 = true ∧ (0xB4 : Byte).getLsbD 4 = true) ∧
      ctrlDefect 0xA4 = none := by decide

/-- The five shapes a value can have, and the phases of the continue form. -/
theorem witness_ControlWriteSelectsByValueAndPhase :
    ctrlDefect 0x44 = none ∧ ctrlDefect 0x00 = none ∧ ctrlDefect 0xE4 = none ∧ ctrlDefect 0x94 = none ∧
      ctrlDefect 0x84 = none ∧
      Phase.busError ∉ [Phase.started, .repStarted, .mtSlaAck, .mtDataAck, .mrSlaAck, .mrDataAck] := by decide

theorem witness_ControlWriteCompletes :
    Unmarked stopPending ∧ stopPending.phase = .idle ∧ stopPending.sto = true ∧
      (at_ .mrSlaAck none).phase ∈ [Phase.mrSlaAck, .mrDataAck] ∧ (at_ .mtDataAck (some 0)).data ≠ none ∧
      (at_ .busError none).phase ∈ [Phase.arbLost, .busError] ∧
      (at_ .mtSlaNack none).phase ∈
        [Phase.mtSlaAck, .mtSlaNack, .mtDataAck, .mtDataNack, .mrSlaNack, .mrDataNack] := by decide

theorem witness_ControlWriteSetsItsBits :
    (seen id (exec (.wrCtrl 0xD4) (at_ .mrDataNack none))).isSome = true ∧
      (seen id (exec (.wrCtrl 0xD4) idleState)).isSome = true ∧ idleState.phase = .idle := by decide

/-- No stop is pending, and the value's EA (here 0) is the EA held, as the source's HOST leaves it. -/
theorem witness_StopInIdleChangesOnlyStoAndEa :
    (Unmarked idleState ∧ idleState.inflight = none ∧ idleState.queued = false ∧ idleState.phase = .idle) ∧
      BlockInv idleState ∧ StaInv idleState ∧ SourceInv idleState ∧ idleState.sto = false := by decide

/-- The same with a stop pending. -/
theorem witness_StopInIdleChangesOnlyStoAndEa_pending :
    (Unmarked stopPending ∧ stopPending.inflight = none ∧ stopPending.queued = false ∧
      stopPending.phase = .idle) ∧
      BlockInv stopPending ∧ StaInv stopPending ∧ SourceInv stopPending ∧ stopPending.sto = true := by decide

theorem witness_commands :
    (Unmarked (at_ .arbLost none) ∧ (at_ .arbLost none).inflight = none ∧ (at_ .arbLost none).queued = false) ∧
      stopPending.phase = .idle ∧ (at_ .mtDataAck none).phase = .mtDataAck ∧
      (at_ .started (some 0)).phase ∈ [Phase.started, .repStarted] ∧ (at_ .started (some 0)).data ≠ none ∧
      (at_ .mtSlaAck none).phase ∈ [Phase.mtSlaAck, .mtDataAck] ∧ (at_ .mtSlaAck none).data = none ∧
      (at_ .mrDataAck none).phase ∈ [Phase.mrSlaAck, .mrDataAck] ∧
      (at_ .mrDataNack none).phase ∈
        [Phase.mtSlaAck, .mtSlaNack, .mtDataAck, .mtDataNack, .mrSlaNack, .mrDataNack] := by decide

theorem witness_DisableOnlyWhenIdle :
    State.reset.phase = .off ∧ (idleState.phase = .idle ∧ idleState.sto = false) ∧
      ¬ (stopPending.phase = .off ∨ (stopPending.phase = .idle ∧ stopPending.sto = false)) := by decide

theorem witness_frames :
    (seen id (exec (.stop true) (at_ .mtDataAck none))).isSome = true ∧
      (seen id (exec (.wrCtrl 0x94) (at_ .mtSlaNack none))).isSome = true ∧
      (seen id (exec (.wrStatus 3) idleState)).isSome = true := by decide

theorem witness_StoringAReceivedByteChangesOneByte :
    (Unmarked (hosting (at_ .mrDataNack (some 0x5A)) [.storeData 40])) ∧
      (hosting (at_ .mrDataNack (some 0x5A)) [.storeData 40]).data = some 0x5A ∧
      (hosting (at_ .mrDataNack (some 0x5A)) [.storeData 40]).inflight = none ∧
      ¬ EngineMoves (hosting (at_ .mrDataNack (some 0x5A)) [.storeData 40]) := by decide

theorem witness_StopStepClearsThePendingStop :
    Unmarked stopPending ∧ stopPending.sto = true ∧
      { stopPending with bus := [.complete .busErr 0xFF] }.bus = [.complete .busErr 0xFF] := by decide

theorem witness_CompletionMakesItsFiveWrites :
    (flying .started (some 0xA0) .transmit (.complete .busErr 0)).sto = false ∧
      (outcome Config.envBusError .transmit .started (some 0xA0) .busErr 0).isSome = true := by decide

theorem witness_OutcomesFollowTheTable :
    Phase.mtDataAck ∈ [Phase.idle, .arbLost, .mtDataAck] ∧ Phase.repStarted ∈ [Phase.started, .repStarted] ∧
      Phase.mtDataAck ∈ [Phase.mtSlaAck, .mtDataAck] ∧ Phase.mrDataAck ∈ [Phase.mrSlaAck, .mrDataAck] := by decide

theorem witness_EngineHasNoOtherStep :
    (stopPending.engineStep (.complete .nack 0)).isSome = true ∧
      ((flying .idle none .start .wait).engineStep (.complete .lost 0)).isSome = true := by decide

theorem witness_CompletedResultStaysUntilAWrite :
    BlockInv (hosting (at_ .mrDataNack (some 0x5A)) [.access 0x200]) ∧
      (hosting (at_ .mrDataNack (some 0x5A)) [.access 0x200]).int = true ∧
      (0x200 : AccessWord).getLsbD 10 = false ∧
      (seen id (step (hosting (at_ .mrDataNack (some 0x5A)) [.access 0x200]))).isSome = true := by decide

theorem witness_CheckSucceedsExactlyOnSuccess :
    (flying .started (some 0xA1) .transmit .wait).inflight = some .transmit ∧
      (flying .started (some 0xA1) .transmit .wait).queued = false ∧
      (flying .started (some 0xA1) .transmit .wait).sto = false ∧
      ((flying .started (some 0xA1) .transmit .wait).outcome .transmit .nack 0).isSome = true := by decide

/-- A transmit in flight that BUS completes. -/
def sending : State := flying .started (some 0xA0) .transmit (.complete .success 0)

/-- A START queued behind a pending stop. -/
def queuedStart : State := { stopPending with queued := true, bus := [.complete .success 0] }

theorem witness_BlockInv : BlockInv sending ∧ (seen id (step sending)).isSome = true := by decide

theorem witness_BlockInv_queued :
    BlockInv queuedStart ∧ (seen id (step queuedStart)).isSome = true := by decide

theorem witness_FlightInv : FlightInv sending ∧ FlightInv queuedStart := by decide

theorem witness_StaInv :
    StaInv startInFlight ∧ startInFlight.phase = .idle ∧ startInFlight.sta = true ∧
      (seen id (step { startInFlight with bus := [.complete .lost 0] })).isSome = true := by decide

theorem witness_SourceInv :
    SourceInv (hosting idleState [.access 0x704, .call params (.probe 0x50)]) ∧
      (seen id (step (hosting idleState [.access 0x704, .call params (.probe 0x50)]))).isSome = true ∧
      ¬ SourceInv (hosting idleState [.access 0x744]) := by decide

theorem witness_TraceInv :
    TraceInv { sending with trace := [.start] } ∧
      (seen id (step { sending with trace := [.start] })).isSome = true := by decide

theorem witness_MemInv :
    MemInv (hosting (at_ .mrDataNack (some 1)) [.storeData 40]) ∧
      (seen id (step (hosting (at_ .mrDataNack (some 1)) [.storeData 40]))).isSome = true := by decide

theorem witness_MarkedStatesAreFinal :
    ¬ Unmarked { State.reset with fault := some .dataUnwritten } ∧
      ¬ Unmarked { State.reset with refused := some .notAdmitted } := by decide

theorem witness_ClockFieldsInfluenceNothing :
    SameButClock { idleState with ps := 1, baud := 0x10 } { idleState with ps := 2, baud := 0xFF } := rfl

theorem witness_OffTakesNoPartInTheBus : BlockInv State.reset ∧ State.reset.phase = .off ∧ Unmarked State.reset := by
  decide

/-- A call that begins, ones that break a precondition at its boundary, one inside another operation. -/
theorem witness_CallsAreCheckedBeforeTheirFirstAccess :
    Unmarked (hosting idleState [.call params (.probe 0x7F)]) ∧
      ¬ EngineMoves (hosting idleState [.call params (.probe 0x7F)]) ∧ inProgress [] = false ∧
      inProgress [.ret .success] = true ∧ (0x7F : Nat) ≤ 0x7F ∧ ¬ (0x80 : Nat) ≤ 0x7F ∧
      callOk [] (.readMulti 0x7F ⟨40, 1⟩ 1) = true ∧ callOk [] (.readMulti 0x7F ⟨40, 1⟩ 2) = false ∧
      callOk [] (.read 0x7F ⟨40, 0⟩) = false ∧ callOk [(40, 9)] (.writeMulti 0x7F ⟨40, 1⟩ 1) = true ∧
      callOk [(41, 9)] (.writeMulti 0x7F ⟨40, 1⟩ 1) = false ∧ callOk [] (.writeMulti 0x7F ⟨40, 0⟩ 0) = true := by
  decide

theorem witness_FailedCheckEndsTheOperation :
    Unmarked (hosting (at_ .mtSlaNack none) [.check 0x18 true, .access 0x794, .ret .success]) ∧
      inProgress [.access 0x794] = false ∧ (at_ .mtSlaNack none).statusByte &&& 0xF8 ≠ 0x18 ∧
      (at_ .mtSlaAck none).statusByte &&& 0xF8 = 0x18 := by decide

theorem witness_PollAfterStopNeverEnds :
    Unmarked (hosting stopPending [.poll none]) ∧ stopPending.int = false ∧ stopPending.inflight = none ∧
      stopPending.queued = false := by decide

theorem witness_ProbeOfAnAbsentDeviceReturnsError :
    Unmarked idleState ∧ BlockInv idleState ∧ idleState.phase = .idle ∧ idleState.inFlight = false ∧
      idleState.sto = false ∧ (0x3C : Nat) ≤ 0x7F ∧ params.pollBound = none ∧ inProgress [] = false ∧
      { hosting idleState [.call params (.probe 0x3C)] with
          bus := [.wait, .complete .success 0, .wait, .wait, .complete .nack 0] }.bus =
        List.replicate 1 .wait ++ .complete .success 0 ::
          (List.replicate 2 .wait ++ .complete .nack 0 :: []) := by decide

/-! #### BusLive is met: a START in flight that BUS completes at once -/

/-- The HOST polls a START that BUS completes in the next step. -/
def polling : State := hosting { startInFlight with bus := [.complete .success 0] } [.poll none]

theorem witness_PollEndsUnderBusLive :
    Unmarked polling ∧ BlockInv polling ∧ FlightInv polling ∧ polling.inFlight = true ∧
      polling.driver.ops = [.poll none] ∧ BusLive polling := by
  refine ⟨by decide, by decide, by decide, by decide, by decide, ?_⟩
  obtain ⟨u, hu, hq⟩ : ∃ u, ReachedIn 2 polling u ∧ Quiescent u := ⟨_, rfl, by decide⟩
  refine busLive_of_taken fun n t ht hready => ?_
  match n with
  | 0 =>
    cases ht
    exact ⟨0, polling, rfl, by decide⟩
  | 1 =>
    exfalso
    cases ht
    revert hready
    decide
  | n + 2 =>
    exfalso
    obtain ⟨v, hv, hqv⟩ := quiescent_run hq n
    have : ReachedIn (n + 2) polling v := Nat.add_comm 2 n ▸ reachedIn_trans hu hv
    obtain rfl := reachedIn_unique ht this
    simp [State.engineReady, State.stopReady, State.completionReady, hqv.2.2.1, hqv.2.2.2] at hready

/-- A write without a poll, refused while BUS has not let START complete (R101, R298). BusLive does not
exclude the run: the waiting step does not stay enabled. -/
theorem test_busLive_of_refused_run :
    BusLive (hosting { startInFlight with bus := [.wait] } [.access 0x6A0]) ∧
      stopOf (step (hosting { startInFlight with bus := [.wait] } [.access 0x6A0])) =
        some (.inr .writeWhileInFlight) := by
  refine ⟨busLive_of_stops (k := 1) fun u hu => ?_, by decide⟩
  cases hu

/-! #### The premises of R185 are met: an address byte for 0x50, and a run on which 0x3C is absent -/

/-- Responsive(0x50) and NoDevice(0x3C) hold together of a choice, and 0x3C's bytes are not constrained. -/
theorem witness_PremisesExcludeWhatTheySay :
    (flying .started (some 0xA0) .transmit .wait).addressee = some 0x50 ∧
      Responsive 0x50 (flying .started (some 0xA0) .transmit .wait) (.complete .success 0) ∧
      NoDevice 0x3C (flying .started (some 0xA0) .transmit .wait) (.complete .success 0) ∧
      Responsive 0x50 (flying .started (some 0x78) .transmit .wait) (.complete .nack 0) ∧
      (State.engineStep (.complete .success 0) (flying .started (some 0xA0) .transmit .wait)).isSome = true := by
  refine ⟨by decide, fun _ => rfl, ?_, ?_, by decide⟩
  · intro b r _ _ hb ha
    cases hb
    exact absurd ha (by decide)
  · intro h
    exact absurd h (by decide)

/-- The slave of the transaction: the last address byte after a start, none after a stop. -/
theorem test_traceSlave :
    traceSlave [.start, .byte 0xA0 .ack, .byte 0x07 .ack] = some 0x50 ∧
      traceSlave [.start, .byte 0xA0 .ack, .byte 0x07 .ack, .repStart, .byte 0xD1 .ack, .recv 5 .ack] =
        some 0x68 ∧
      traceSlave [.start, .byte 0xA0 .ack, .stop] = none := by decide

/-- A probe of 0x3C whose address byte is not acknowledged. -/
def probing : State :=
  hosting { idleState with bus := [.complete .success 0, .complete .nack 0, .complete .nack 0] }
    [.call params (.probe 0x3C)]

/-- Where ENGINE is ready it moves, quietly, and the address byte gets no Ack. -/
def choiceOk (t : State) : Bool :=
  !t.engineReady ||
    (quietMove t.busMove && (t.takeBusMove.engineStep t.busMove).isSome &&
      (t.inflight != some .transmit || !responsiveMove t.busMove))

theorem probing_choices :
    ((List.range 13).all fun n => (seen choiceOk (runSteps n probing)).getD false) = true := by decide

theorem probing_ends : ∃ u, ReachedIn 13 probing u ∧ Quiescent u := ⟨_, rfl, by decide⟩

/-- On the whole run of `probing` every choice is as above: after 13 steps there is none. -/
theorem probing_run {n : Nat} {t : State} (ht : ReachedIn n probing t) : choiceOk t = true := by
  by_cases hn : n < 13
  · have h := List.all_eq_true.mp probing_choices n (List.mem_range.mpr hn)
    rw [ht] at h
    exact h
  · obtain ⟨u, hu, hq⟩ := probing_ends
    obtain ⟨v, hv, ⟨-, -, hs, hi⟩⟩ := quiescent_run hq (n - 13)
    have hnv : ReachedIn (13 + (n - 13)) probing v := reachedIn_trans hu hv
    rw [Nat.add_sub_cancel' (Nat.le_of_not_lt hn)] at hnv
    obtain rfl := reachedIn_unique ht hnv
    simp [choiceOk, State.engineReady, State.stopReady, State.completionReady, hs, hi]

theorem witness_ProbeFailsUnderNoDeviceAndQuiet :
    (Unmarked probing ∧ BlockInv probing ∧ probing.phase = .idle ∧ probing.inFlight = false ∧
      probing.sto = false ∧ (0x3C : Nat) ≤ 0x7F ∧ params.pollBound = none ∧ inProgress [] = false ∧
      probing.driver.ops = [.call params (.probe 0x3C)]) ∧
      BusLive probing ∧ OnRun (fun _ m => quietMove m = true) probing ∧ OnRun (NoDevice 0x3C) probing := by
  refine ⟨by decide, busLive_of_taken fun n t ht hr => ?_, fun n t ht hr => ?_, fun n t ht hr b r hi _ _ _ hm => ?_⟩ <;>
    have h := probing_run ht <;> simp only [choiceOk, hr, Bool.not_true, Bool.false_or, Bool.and_eq_true] at h
  · exact ⟨0, t, rfl, hr, h.1.2⟩
  · exact h.1.1
  · simp [hi, hm, responsiveMove] at h

end Sys2Proof.Tests
end

/-! ### The step that runs an access (R5, R60, R70, R81) -/

section

namespace Sys2Proof

/-- The access is a register write (R70, W), in its plain form or as a command row. -/
def Instr.isWrite : Instr → Bool
  | .rdBaud | .rdStatus | .rdData | .rdCtrl => false
  | .wrBaud _ | .wrStatus _ | .wrData _ | .wrCtrl _ | .enable _ | .disable _ | .start _ | .repStart _
  | .stop _ | .transmitAddr _ | .transmitData _ | .receiveAck | .receiveNack => true

@[simp] theorem isWrite_commandInstr (c : Command) (ea : Bool) : (commandInstr c ea).isWrite = true := by
  cases c <;> rfl

@[simp] theorem isWrite_decodeCtrlWrite (p : Phase) (v : Byte) : (decodeCtrlWrite p v).isWrite = true := by
  unfold decodeCtrlWrite
  split
  · rfl
  · split
    · exact isWrite_commandInstr _ _
    · rfl

@[simp] theorem isWrite_decodeAccess (w : AccessWord) : (decodeAccess w).isWrite = w.getLsbD 10 := by
  unfold decodeAccess
  split <;> next hw _ _ => exact hw.symm

/-- In every phase a word decodes to a write exactly where its W bit is set (R70, R81). -/
@[simp] theorem isWrite_decode (p : Phase) (w : AccessWord) : (decode p w).isWrite = w.getLsbD 10 := by
  unfold decode
  split
  · next htop =>
    have hW : (w.extractLsb' 8 3).getLsbD 2 = w.getLsbD 10 := by simp
    rw [isWrite_decodeCtrlWrite, ← hW, htop]
    rfl
  · exact isWrite_decodeAccess w

end Sys2Proof

namespace Sys2Proof.Machine

theorem mapNext_mapNext (f g : State → State) (o : Answered) :
    mapNext f (mapNext g o) = mapNext (fun t => f (g t)) o := by
  cases o <;> rfl

/-- The state after an access's own epoch count: only a write advances it (R58). -/
def State.countAccess (write : Bool) (s : State) : State := if write then s.nextEpoch else s

/-- An access is its instruction's meaning, with the epoch counted. -/
theorem hostAccess_eq_mapNext (i : Instr) (s : State) :
    hostAccess i s = mapNext (State.countAccess i.isWrite) (exec i s) := by
  have read : ∀ o : Answered, mapNext (State.countAccess false) o = o := by rintro ⟨⟩ <;> rfl
  cases i with
  | rdBaud | rdStatus | rdData | rdCtrl => exact (read _).symm
  | _ => rfl

/-- Where the HOST's next operation is an access and BUS lets no ENGINE step happen, the step is exec of the
access, then the epoch, the HOST's remaining operations and the tick. -/
theorem step_of_access {s : State} {w : AccessWord} {rest : List HostOp} (hm : Unmarked s)
    (hops : s.driver.ops = .access w :: rest) (he : ¬ EngineMoves s) :
    step s =
      mapNext (fun t => ((t.countAccess (w.getLsbD 10)).setOps rest).nextTick)
        (exec (decode s.phase w) (if s.engineReady then s.takeBusMove else s)) := by
  rw [step_of_not_engineMoves hm he]
  have host : ∀ s' : State, s'.phase = s.phase → s'.driver = s.driver →
      hostStep s' =
        mapNext (fun t => (t.countAccess (w.getLsbD 10)).setOps rest) (exec (decode s.phase w) s') := by
    intro s' hp hd
    rw [hostStep, hd, hops]
    simp only [hostOp, State.fetch, hp, hostAccess_eq_mapNext, isWrite_decode, mapNext_mapNext]
  rw [host _ (by split <;> rfl) (by split <;> rfl), mapNext_mapNext]

/-- Settles O1: the step is the HOST's, and its access is exec with the counters and the script around it. -/
theorem stepRunsTheFetchedAccess : Obligations.StepRunsTheFetchedAccess := by
  intro s w rest hm hops he
  rw [step_of_access hm hops he]
  change mapNext _ (exec _ (if s.engineReady then { s with bus := s.bus.tail } else s)) = _
  cases exec (decode s.phase w) (if s.engineReady then { s with bus := s.bus.tail } else s) with
  | next t => cases hW : w.getLsbD 10 <;> rfl
  | fault r => rfl
  | refused r => rfl

end Sys2Proof.Machine

end

/-! ### The receives (R162, R163) -/

section

namespace Sys2Proof.Machine

/-- The receives' row of the admission table (R165). -/
theorem receives_admitted {p : Phase} (h : p ∈ [Phase.mrSlaAck, .mrDataAck]) :
    admitted .receiveAck p = true ∧ admitted .receiveNack p = true := by
  have hp : [Phase.mrSlaAck, .mrDataAck].contains p = true := List.contains_iff_mem.mpr h
  exact ⟨hp, hp⟩

/-- Settles O26: both receives are admitted, and each makes its trigger's writes and goes in flight. -/
theorem receivesBeginWithTheirAcknowledge : Obligations.ReceivesBeginWithTheirAcknowledge := by
  intro s hm hi hq hp
  have hfree : s.inFlight = false := inFlight_eq_false_iff.mpr ⟨hi, hq⟩
  obtain ⟨hack, hnack⟩ := receives_admitted hp
  exact ⟨execReceiveAck_next_iff.mpr ⟨hm, hfree, hack, rfl⟩,
    execReceiveNack_next_iff.mpr ⟨hm, hfree, hnack, rfl⟩⟩

end Sys2Proof.Machine

end

/-! ### What a step adds to the bus trace (R39, R200) -/

section

namespace Sys2Proof.Machine

variable {s t : State}

/-- A command's write adds nothing to the trace, or STOP's one event (R152). -/
theorem perform_trace {c : Command} {ea : Bool} (h : perform c ea s = .next t) :
    t.trace = s.trace ∨ t.trace = s.trace ++ [.stop] := by
  cases c with
  | enable =>
    obtain ⟨-, -, rfl⟩ := execEnable_next_iff.mp h
    exact .inl rfl
  | disable =>
    obtain ⟨-, -, -, rfl⟩ := execDisable_next_iff.mp h
    exact .inl rfl
  | start =>
    obtain ⟨-, -, -, rfl⟩ := execStart_next_iff.mp h
    obtain ⟨-, hb⟩ | ⟨-, hb⟩ := beginStart_cases (s.trigger ea true) <;> exact .inl (by rw [hb]; rfl)
  | repStart =>
    obtain ⟨-, -, -, rfl⟩ := execRepStart_next_iff.mp h
    exact .inl rfl
  | stop =>
    obtain ⟨-, -, -, rfl⟩ := execStop_next_iff.mp h
    cases ho : owner s.phase <;> simp [beginStop_eq, ho]
  | transmitAddr =>
    obtain ⟨-, -, -, -, rfl⟩ := execTransmitAddr_next_iff.mp h
    exact .inl rfl
  | transmitData =>
    obtain ⟨-, -, -, -, rfl⟩ := execTransmitData_next_iff.mp h
    exact .inl rfl
  | receiveAck =>
    obtain ⟨-, -, -, rfl⟩ := execReceiveAck_next_iff.mp h
    exact .inl rfl
  | receiveNack =>
    obtain ⟨-, -, -, rfl⟩ := execReceiveNack_next_iff.mp h
    exact .inl rfl

/-- The only event an access makes is STOP's (R200): every other event is a completion's. -/
theorem exec_trace {i : Instr} (h : exec i s = .next t) :
    t.trace = s.trace ∨ t.trace = s.trace ++ [.stop] := by
  cases i with
  | rdBaud =>
    obtain ⟨-, rfl⟩ := execRdBaud_next_iff.mp h
    exact .inl rfl
  | rdStatus =>
    obtain ⟨-, rfl⟩ := execRdStatus_next_iff.mp h
    exact .inl rfl
  | rdData =>
    obtain ⟨-, _, -, rfl⟩ := execRdData_next_iff.mp h
    exact .inl rfl
  | rdCtrl =>
    obtain ⟨-, rfl⟩ := execRdCtrl_next_iff.mp h
    exact .inl rfl
  | wrBaud v =>
    obtain ⟨-, -, rfl⟩ := execWrBaud_next_iff.mp h
    exact .inl rfl
  | wrStatus v =>
    obtain ⟨-, -, rfl⟩ := execWrStatus_next_iff.mp h
    exact .inl rfl
  | wrData v =>
    obtain ⟨-, -, rfl⟩ := execWrData_next_iff.mp h
    exact .inl rfl
  | wrCtrl v =>
    obtain ⟨-, _, -, hp⟩ := execWrCtrl_next_iff.mp h
    exact perform_trace hp
  | enable ea => exact perform_trace (c := .enable) (ea := ea) h
  | disable ea => exact perform_trace (c := .disable) (ea := ea) h
  | start ea => exact perform_trace (c := .start) (ea := ea) h
  | repStart ea => exact perform_trace (c := .repStart) (ea := ea) h
  | stop ea => exact perform_trace (c := .stop) (ea := ea) h
  | transmitAddr ea => exact perform_trace (c := .transmitAddr) (ea := ea) h
  | transmitData ea => exact perform_trace (c := .transmitData) (ea := ea) h
  | receiveAck => exact perform_trace (c := .receiveAck) (ea := true) h
  | receiveNack => exact perform_trace (c := .receiveNack) (ea := false) h

/-- A HOST step adds what its access adds. -/
theorem hostStep_trace (h : hostStep s = .next t) :
    t.trace = s.trace ∨ t.trace = s.trace ++ [.stop] := by
  obtain ⟨d, rfl, -⟩ | ⟨i, v, hv, d, rfl | rfl, -⟩ := hostStep_cases h
  · exact .inl rfl
  · exact exec_trace (t := v) hv
  · exact exec_trace (t := v) hv

/-- ENGINE's stop step makes no event (R180), its completion one (R181). -/
theorem engineStep_trace {m : BusMove} (h : s.engineStep m = some t) :
    t.trace = s.trace ∨ ∃ e, t.trace = s.trace ++ [e] := by
  obtain ⟨_, _, -, ⟨-, rfl⟩ | ⟨-, _, o, -, -, rfl⟩⟩ := engineStep_cases h
  · exact .inl (by rw [stopDone_eq])
  · exact .inr ⟨o.event, rfl⟩

/-- Whichever agent moves, a step adds no event or one. -/
theorem step_trace (h : step s = .next t) : t.trace = s.trace ∨ ∃ e, t.trace = s.trace ++ [e] := by
  obtain ⟨-, ⟨-, u, hu, rfl⟩ | ⟨s', u, hs', hu, rfl⟩⟩ := step_cases h
  · exact engineStep_trace (s := s.takeBusMove) (t := u) hu
  · have hstart : s'.trace = s.trace := by
      obtain ⟨rfl, -⟩ | ⟨rfl, -⟩ := hs' <;> rfl
    rw [← hstart]
    exact (hostStep_trace hu).imp_right fun hstop => ⟨.stop, hstop⟩

/-- Settles O45: of the two agents' steps each adds at most one event. -/
theorem theTraceOnlyGrows : Obligations.TheTraceOnlyGrows := by
  intro s t h
  obtain heq | ⟨e, he⟩ := step_trace h
  · exact ⟨[], by simpa using heq, by decide⟩
  · exact ⟨[e], he, Nat.le_refl 1⟩

end Sys2Proof.Machine

end

/-! ### The CTRL and BAUD reads (R103, R106) -/

section

namespace Sys2Proof.Machine

/-- A CTRL byte's bits below bit 7, each the field R23 puts there or 0: a finite fact about the five
fields, since the byte depends on nothing else. -/
theorem ctrlByte_bits_below_int (s : State) :
    s.ctrlByte.getLsbD 6 = s.ea ∧ s.ctrlByte.getLsbD 5 = s.sta ∧ s.ctrlByte.getLsbD 4 = s.sto ∧
      s.ctrlByte.getLsbD 3 = false ∧ s.ctrlByte.getLsbD 2 = s.en ∧
      s.ctrlByte.getLsbD 1 = false ∧ s.ctrlByte.getLsbD 0 = false := by
  unfold State.ctrlByte
  generalize s.int = int, s.ea = ea, s.sta = sta, s.sto = sto, s.en = en
  revert int ea sta sto en
  decide

/-- Settles O7: the byte is `ctrlByte`, and the read makes no other change than `readBack`. -/
theorem ctrlReadReturnsItsFields : Obligations.CtrlReadReturnsItsFields :=
  ⟨by decide, fun s hm =>
    ⟨s.ctrlByte, execRdCtrl_next_iff.mpr ⟨hm, rfl⟩, ctrlByte_bit7 s, ctrlByte_bits_below_int s⟩⟩

/-- Settles O11: the read makes no other change than `readBack` of the divisor. -/
theorem baudReadReturnsTheDivisor : Obligations.BaudReadReturnsTheDivisor :=
  ⟨by decide, fun _ hm => execRdBaud_next_iff.mpr ⟨hm, rfl⟩⟩

end Sys2Proof.Machine

end

/-! ### The status decoder (R130, R131) -/

section

namespace Sys2Proof.Machine

/-- The code of a decoded case: its row of the table in R131, and an unrecognized case's own code. -/
def StatusCode.code : StatusCode → Byte
  | .start => 0x08
  | .repStart => 0x10
  | .slaWAck => 0x18
  | .slaWNack => 0x20
  | .dataTxAck => 0x28
  | .dataTxNack => 0x30
  | .arbLost => 0x38
  | .slaRAck => 0x40
  | .slaRNack => 0x48
  | .dataRxAck => 0x50
  | .dataRxNack => 0x58
  | .unrecognized c => c

/-- Masking a code again leaves it as it is. -/
@[simp] theorem statusCode_statusCode (v : Byte) : statusCode (statusCode v) = statusCode v := by
  simp [statusCode, BitVec.and_assoc]

/-- The decoder sees a value only through its code (R131). -/
@[simp] theorem decodeStatus_statusCode (v : Byte) : decodeStatus (statusCode v) = decodeStatus v := by
  simp only [decodeStatus, statusCode_statusCode]

/-- Decoding loses nothing of the code: the case a value decodes to has that value's code. -/
@[simp] theorem code_decodeStatus (v : Byte) : (decodeStatus v).code = statusCode v := by
  simp only [decodeStatus]
  split_ifs <;> simp only [StatusCode.code, *]

/-- A case that its own code decodes to is the answer for exactly the values of that code. -/
theorem statusCode_eq_code_iff {v : Byte} {k : StatusCode} (hk : decodeStatus k.code = k) :
    statusCode v = k.code ↔ decodeStatus v = k where
  mp h := by rw [← decodeStatus_statusCode, h, hk]
  mpr h := by rw [← code_decodeStatus, h]

/-- A code outside R131's table decodes to the unrecognized case with that code. -/
theorem decodeStatus_of_unnamed {v : Byte}
    (h : statusCode v ∉
      ([0x08, 0x10, 0x18, 0x20, 0x28, 0x30, 0x38, 0x40, 0x48, 0x50, 0x58] : List Byte)) :
    decodeStatus v = .unrecognized (statusCode v) := by
  simp only [List.mem_cons, List.not_mem_nil, or_false, not_or] at h
  simp only [decodeStatus, h, if_false]

/-- Settles O51: each named case is the one its own code decodes to, and decoding keeps the code. -/
theorem statusDecoderMasksAndNames : Obligations.StatusDecoderMasksAndNames := fun v =>
  ⟨rfl, (decodeStatus_statusCode v).symm,
    statusCode_eq_code_iff (k := .start) rfl,
    statusCode_eq_code_iff (k := .repStart) rfl,
    statusCode_eq_code_iff (k := .slaWAck) rfl,
    statusCode_eq_code_iff (k := .slaWNack) rfl,
    statusCode_eq_code_iff (k := .dataTxAck) rfl,
    statusCode_eq_code_iff (k := .dataTxNack) rfl,
    statusCode_eq_code_iff (k := .arbLost) rfl,
    statusCode_eq_code_iff (k := .slaRAck) rfl,
    statusCode_eq_code_iff (k := .slaRNack) rfl,
    statusCode_eq_code_iff (k := .dataRxAck) rfl,
    statusCode_eq_code_iff (k := .dataRxNack) rfl,
    decodeStatus_of_unnamed⟩

end Sys2Proof.Machine

end

/-! ### ENABLE (R101, R170) -/

section

namespace Sys2Proof.Machine

theorem inFlight_eq_true_iff {s : State} :
    s.inFlight = true ↔ s.inflight ≠ none ∨ s.queued = true := by
  simp [State.inFlight, Option.isSome_iff_ne_none]

/-- A register write in flight is refused, whatever it would do (R101). -/
theorem hostWrite_of_inFlight {s : State} (hm : Unmarked s) (h : s.inFlight = true) (k : Answered) :
    hostWrite s k = .refused .writeWhileInFlight := by
  rw [hostWrite, unlessMarked_of_unmarked hm.1 hm.2, if_pos h, refuse]

/-- Settles O27: nothing in flight, ENABLE is admitted in every phase; in flight, it is refused as every
register write is. -/
theorem enableSetsTheEnableBit : Obligations.EnableSetsTheEnableBit :=
  ⟨by decide, fun _ _ hm =>
    ⟨fun hi hq => execEnable_next_iff.mpr ⟨hm, inFlight_eq_false_iff.mpr ⟨hi, hq⟩, rfl⟩,
      fun h => hostWrite_of_inFlight hm (inFlight_eq_true_iff.mpr h) _⟩⟩

end Sys2Proof.Machine

end

/-! ### Encoding and decoding (R70, R72, R76, R81) -/

section

namespace Sys2Proof

/-- The bits of an access word: VAL, REG, W (R70). -/
theorem accessWord_getLsbD (b : Bool) (r : Reg) (v : Byte) (i : Nat) :
    (accessWord b r v).getLsbD i =
      if i < 8 then v.getLsbD i
      else if i < 10 then (regIndex r).getLsbD (i - 8)
      else (decide (i = 10) && b) := by
  rw [accessWord, BitVec.getLsbD_append, BitVec.getLsbD_append, BitVec.getLsbD_ofBool]
  by_cases h8 : i < 8
  · rw [if_pos h8, if_pos h8]
  · rw [if_neg h8, if_neg h8]
    by_cases h10 : i < 10
    · rw [if_pos (by omega), if_pos h10]
    · rw [if_neg (by omega), if_neg h10,
        decide_eq_decide.mpr (show i - 8 - 2 = 0 ↔ i = 10 by omega)]

theorem decodeAccess_accessWord (b : Bool) (r : Reg) (v : Byte) :
    decodeAccess (accessWord b r v) =
      match b, r with
      | false, .baud => .rdBaud
      | false, .status => .rdStatus
      | false, .data => .rdData
      | false, .ctrl => .rdCtrl
      | true, .baud => .wrBaud v
      | true, .status => .wrStatus v
      | true, .data => .wrData v
      | true, .ctrl => .wrCtrl v := by
  simp only [decodeAccess, accessVal_accessWord, accessWord_getLsbD]
  cases b <;> cases r <;> rfl

/-- A word is its fields (R70). -/
theorem eq_accessWord {w : AccessWord} {r : Reg} (h9 : w.getLsbD 9 = (regIndex r).getLsbD 1)
    (h8 : w.getLsbD 8 = (regIndex r).getLsbD 0) : w = accessWord (w.getLsbD 10) r (accessVal w) := by
  refine BitVec.eq_of_getLsbD_eq fun i hi => ?_
  rw [accessWord_getLsbD]
  split_ifs with h8' h10'
  · simp [accessVal, h8']
  · obtain rfl | rfl : i = 8 ∨ i = 9 := by omega
    · exact h8
    · exact h9
  · obtain rfl : i = 10 := by omega
    simp

/-- A read's canonical word has VAL 0 (R70). -/
theorem accessWord_and_top (b : Bool) (r : Reg) (v : Byte) :
    accessWord b r v &&& 0x700 = accessWord b r 0 := by
  cases b <;> cases r <;> revert v <;> decide

/-- The plain access form keeps the word, but for a read's VAL. -/
theorem encode_decodeAccess (w : AccessWord) :
    encode (decodeAccess w) = if w.getLsbD 10 then w else w &&& 0x700 := by
  have fields : ∀ r : Reg, w.getLsbD 9 = (regIndex r).getLsbD 1 → w.getLsbD 8 = (regIndex r).getLsbD 0 →
      encode (decodeAccess w) = if w.getLsbD 10 then w else w &&& 0x700 := by
    intro r h9 h8
    have hw := eq_accessWord h9 h8
    generalize w.getLsbD 10 = b, accessVal w = v at hw
    subst hw
    rw [decodeAccess_accessWord, accessWord_and_top]
    cases b <;> cases r <;> rfl
  cases h9 : w.getLsbD 9 <;> cases h8 : w.getLsbD 8
  · exact fields .baud h9 h8
  · exact fields .status h9 h8
  · exact fields .data h9 h8
  · exact fields .ctrl h9 h8

/-- A value that passes R75 is one of the five shapes, with EA 0 or 1 (R77). -/
theorem ctrlValue_shape {v : Byte} (hd : ctrlDefect v = none) :
    ∃ ea, v = 0x00 ||| eaBit ea ∨ v = 0x04 ||| eaBit ea ∨ v = 0xA4 ||| eaBit ea ∨ v = 0x94 ||| eaBit ea ∨
      v = 0x84 ||| eaBit ea :=
  ⟨ctrlEa v, ctrlValueWellFormed_cases v ((ctrlDefect_none_iff v).mp hd)⟩

/-- The CTRL byte of a selected command's row is the value that selected it (R76, R77). -/
theorem encode_decodeCtrlWrite (p : Phase) (v : Byte) :
    encode (decodeCtrlWrite p v) = accessWord true .ctrl v := by
  cases hd : ctrlDefect v with
  | some d => simp only [decodeCtrlWrite, hd, encode]
  | none =>
    obtain ⟨ea, rfl | rfl | rfl | rfl | rfl⟩ := ctrlValue_shape hd
    · rw [decodeCtrlWrite_disable, encode]
    · rw [decodeCtrlWrite_enable, encode]
    · rw [decodeCtrlWrite_start]
      split <;> rfl
    · rw [decodeCtrlWrite_stop, encode]
    · rw [decodeCtrlWrite_continue]
      cases ea <;> cases p <;> rfl

/-- A word with top bits 111 is a CTRL write (R70, R72). -/
theorem eq_ctrlWord_of_top {w : AccessWord} (h : w.extractLsb' 8 3 = 7) :
    w = accessWord true .ctrl (accessVal w) := by
  have bit : ∀ i < 3, w.getLsbD (8 + i) = (7 : BitVec 3).getLsbD i := by
    intro i hi
    rw [← h]
    simp [hi]
  have hw := eq_accessWord (r := .ctrl) (bit 1 (by decide)) (bit 0 (by decide))
  rwa [show w.getLsbD 10 = true from bit 2 (by decide)] at hw

/-- Settles O5: the access form keeps the word, and a CTRL write's row keeps its value. -/
theorem decodedInstructionEncodesToItsWord : Obligations.DecodedInstructionEncodesToItsWord := by
  intro p w
  unfold decode
  split
  · next h =>
    have hw := eq_ctrlWord_of_top h
    have h10 : w.getLsbD 10 = true := by rw [hw, accessWord_getLsbD]; rfl
    rw [encode_decodeCtrlWrite, ← hw, if_pos h10]
  · exact encode_decodeAccess w

/-- A CTRL value decodes as the plain write where R75 refuses it or R76 selects nothing. -/
theorem decodeCtrlWrite_eq_wrCtrl_iff (p : Phase) (v : Byte) :
    decodeCtrlWrite p v = .wrCtrl v ↔ readsIn p (.wrCtrl v) = true := by
  cases hd : ctrlDefect v with
  | some d =>
    have hw : ctrlValueWellFormed v = false := by
      rw [Bool.eq_false_iff, ne_eq, ← ctrlDefect_none_iff, hd]
      simp
    simp [decodeCtrlWrite, hd, readsIn, hw]
  | none =>
    obtain ⟨ea, rfl | rfl | rfl | rfl | rfl⟩ := ctrlValue_shape hd
    all_goals cases ea <;> cases p <;> decide

/-- Settles O4: a word of the first seven access forms reads so in every phase, and a CTRL write reads as the
row R76 selects. -/
theorem encodedWordDecodesBackExactlyInItsPhases : Obligations.EncodedWordDecodesBackExactlyInItsPhases := by
  intro p i
  have plain : ∀ b r v, BitVec.ofBool b ++ regIndex r ≠ 7 →
      decode p (accessWord b r v) = decodeAccess (accessWord b r v) := by
    intro b r v h
    rw [decode, accessWord_top, if_neg h]
  cases i with
  | rdBaud | rdStatus | rdData | rdCtrl => simp [encode, plain, decodeAccess_accessWord, readsIn, regIndex]
  | wrBaud v | wrStatus v | wrData v => simp [encode, plain, decodeAccess_accessWord, readsIn, regIndex]
  | wrCtrl v =>
    rw [encode, decode_wrCtrl_word]
    exact decodeCtrlWrite_eq_wrCtrl_iff p v
  | enable ea =>
    rw [encode, decode_wrCtrl_word, decodeCtrlWrite_enable]
    simp [readsIn]
  | disable ea =>
    rw [encode, decode_wrCtrl_word, decodeCtrlWrite_disable]
    simp [readsIn]
  | stop ea =>
    rw [encode, decode_wrCtrl_word, decodeCtrlWrite_stop]
    simp [readsIn]
  | start ea | repStart ea =>
    rw [encode, decode_wrCtrl_word, decodeCtrlWrite_start]
    by_cases hp : p = .mtDataAck <;> simp [readsIn, hp]
  | transmitAddr ea | transmitData ea =>
    rw [encode, decode_wrCtrl_word, decodeCtrlWrite_continue]
    cases ea <;> cases p <;> decide
  | receiveAck | receiveNack =>
    rw [encode, decode_wrCtrl_word]
    cases p <;> decide

end Sys2Proof

end

/-! ### What each command's write and each access leaves (R103 to R110, R150 to R171) -/

section

namespace Sys2Proof.Machine

variable {s t : State}

/-- The state a command's CTRL write leaves where it goes on: the writes of its rule (R150 to R171). -/
def commandEffect (c : Command) (ea : Bool) (s : State) : State :=
  match c with
  | .enable =>
    { s with ea := ea, sta := false, en := true, phase := if s.phase = .off then .idle else s.phase }
  | .disable => { s with ea := ea, sta := false, en := false, phase := .off }
  | .start =>
    if s.sto = true then { s with int := false, ea := ea, sta := true, en := true, queued := true }
    else { s with int := false, ea := ea, sta := true, en := true, inflight := some .start }
  | .repStart => { s with int := false, ea := ea, sta := true, en := true, inflight := some .start }
  | .stop =>
    { s with
      int := false, ea := ea, sta := false, sto := true, en := true, phase := .idle
      trace := if owner s.phase then s.trace ++ [.stop] else s.trace }
  | .transmitAddr | .transmitData =>
    { s with int := false, ea := ea, sta := false, en := true, inflight := some .transmit }
  | .receiveAck => { s with int := false, ea := true, sta := false, en := true, inflight := some .recvAck }
  | .receiveNack => { s with int := false, ea := false, sta := false, en := true, inflight := some .recvNack }

/-- A command's write goes on, nothing being in flight: its column of R165 admits it, DISABLE's own
condition holds (R171), and a transmit has a byte (R160, R161). -/
structure CommandReady (c : Command) (s : State) : Prop where
  admitted : admitted c s.phase = true
  disable : c = .disable → disableAdmitted s = true
  data : c = .transmitAddr ∨ c = .transmitData → s.data ≠ none

theorem commandReady_of_admitted {c : Command} (ha : admitted c s.phase = true)
    (hc : c ∉ [Command.disable, .transmitAddr, .transmitData]) : CommandReady c s where
  admitted := ha
  disable hd := by simp [hd] at hc
  data ht := by obtain rfl | rfl := ht <;> simp at hc

theorem commandReady_iff_admitted {c : Command} (hc : c ∉ [Command.disable, .transmitAddr, .transmitData]) :
    CommandReady c s ↔ admitted c s.phase = true :=
  ⟨CommandReady.admitted, fun ha => commandReady_of_admitted ha hc⟩

theorem commandReady_disable_iff : CommandReady .disable s ↔ disableAdmitted s = true :=
  ⟨fun h => h.disable rfl, fun h => ⟨rfl, fun _ => h, by simp⟩⟩

theorem commandReady_transmit_iff {c : Command} (hc : c = .transmitAddr ∨ c = .transmitData) :
    CommandReady c s ↔ admitted c s.phase = true ∧ s.data ≠ none :=
  ⟨fun h => ⟨h.admitted, h.data hc⟩,
    fun ⟨ha, hd⟩ => ⟨ha, fun h => by simp [h] at hc, fun _ => hd⟩⟩

/-- When a command's write answers a next state, and which. -/
theorem perform_next_iff {c : Command} {ea : Bool} :
    perform c ea s = .next t ↔
      (s.fault = none ∧ s.refused = none) ∧ s.inFlight = false ∧ CommandReady c s ∧ commandEffect c ea s = t := by
  cases c with
  | enable =>
    rw [commandReady_iff_admitted (by decide), perform, execEnable_next_iff]
    simp [admitted, commandEffect]
  | disable =>
    rw [commandReady_disable_iff]
    exact execDisable_next_iff
  | start =>
    rw [commandReady_iff_admitted (by decide)]
    exact execStart_next_iff
  | repStart =>
    rw [commandReady_iff_admitted (by decide)]
    exact execRepStart_next_iff
  | stop =>
    have he : (s.trigger ea false).beginStop = commandEffect .stop ea s := beginStop_eq _
    rw [commandReady_iff_admitted (by decide), ← he]
    exact execStop_next_iff
  | transmitAddr =>
    rw [commandReady_transmit_iff (.inl rfl), and_assoc (b := s.data ≠ none)]
    exact execTransmitAddr_next_iff
  | transmitData =>
    rw [commandReady_transmit_iff (.inr rfl), and_assoc (b := s.data ≠ none)]
    exact execTransmitData_next_iff
  | receiveAck =>
    rw [commandReady_iff_admitted (by decide)]
    exact execReceiveAck_next_iff
  | receiveNack =>
    rw [commandReady_iff_admitted (by decide)]
    exact execReceiveNack_next_iff

/-- An instruction is a CTRL write that performs the command `c` with this EA: the command's row, or the
plain CTRL write whose value selects it in the phase (R76). -/
def Performs (i : Instr) (p : Phase) (c : Command) (ea : Bool) : Prop :=
  i = commandInstr c ea ∨
    ∃ v, i = .wrCtrl v ∧ ctrlDefect v = none ∧ selectCommand v p = some c ∧ ea = ctrlEa v

/-- What an access that goes on has done. -/
theorem exec_next_cases {i : Instr} (h : exec i s = .next t) :
    (i.isWrite = false ∧ ∃ v, t = s.readBack v) ∨
      (∃ v, i = .wrBaud v ∧ t = s.setBaud v) ∨
      (∃ v, i = .wrStatus v ∧ t = s.setPs (v.extractLsb' 0 2)) ∨
      (∃ v, i = .wrData v ∧ s.inFlight = false ∧ t = s.setData (some v)) ∨
      ∃ c ea, Performs i s.phase c ea ∧ perform c ea s = .next t := by
  have command : ∀ c ea, i = commandInstr c ea → ∃ c ea, Performs i s.phase c ea ∧ perform c ea s = .next t :=
    fun c ea hi => ⟨c, ea, .inl hi, by rw [perform_eq_exec, ← hi, h]⟩
  cases i with
  | rdBaud =>
    obtain ⟨-, rfl⟩ := execRdBaud_next_iff.mp h
    exact .inl ⟨rfl, _, rfl⟩
  | rdStatus =>
    obtain ⟨-, rfl⟩ := execRdStatus_next_iff.mp h
    exact .inl ⟨rfl, _, rfl⟩
  | rdData =>
    obtain ⟨-, _, -, rfl⟩ := execRdData_next_iff.mp h
    exact .inl ⟨rfl, _, rfl⟩
  | rdCtrl =>
    obtain ⟨-, rfl⟩ := execRdCtrl_next_iff.mp h
    exact .inl ⟨rfl, _, rfl⟩
  | wrBaud v =>
    obtain ⟨-, -, rfl⟩ := execWrBaud_next_iff.mp h
    exact .inr (.inl ⟨v, rfl, rfl⟩)
  | wrStatus v =>
    obtain ⟨-, -, rfl⟩ := execWrStatus_next_iff.mp h
    exact .inr (.inr (.inl ⟨v, rfl, rfl⟩))
  | wrData v =>
    obtain ⟨-, hf, rfl⟩ := execWrData_next_iff.mp h
    exact .inr (.inr (.inr (.inl ⟨v, rfl, hf, rfl⟩)))
  | wrCtrl v =>
    obtain ⟨hd, c, hc, hp⟩ := execWrCtrl_next_iff.mp h
    exact .inr (.inr (.inr (.inr ⟨c, _, .inr ⟨v, rfl, hd, hc, rfl⟩, hp⟩)))
  | enable ea => exact .inr (.inr (.inr (.inr (command .enable ea rfl))))
  | disable ea => exact .inr (.inr (.inr (.inr (command .disable ea rfl))))
  | start ea => exact .inr (.inr (.inr (.inr (command .start ea rfl))))
  | repStart ea => exact .inr (.inr (.inr (.inr (command .repStart ea rfl))))
  | stop ea => exact .inr (.inr (.inr (.inr (command .stop ea rfl))))
  | transmitAddr ea => exact .inr (.inr (.inr (.inr (command .transmitAddr ea rfl))))
  | transmitData ea => exact .inr (.inr (.inr (.inr (command .transmitData ea rfl))))
  | receiveAck => exact .inr (.inr (.inr (.inr (command .receiveAck true rfl))))
  | receiveNack => exact .inr (.inr (.inr (.inr (command .receiveNack false rfl))))

end Sys2Proof.Machine

end

/-! ### What a step can do to the block, and an invariant's step lemma -/

section

namespace Sys2Proof.Machine

variable {s t : State}

/-- `t` has the block's control state of `s`, and its DATA while a command is in flight: what any read, any
write of DATA, STATUS or BAUD, and the HOST's and BUS's own bookkeeping leave. -/
structure KeepsControl (s t : State) : Prop where
  phase : t.phase = s.phase
  int : t.int = s.int
  ea : t.ea = s.ea
  sta : t.sta = s.sta
  sto : t.sto = s.sto
  en : t.en = s.en
  inflight : t.inflight = s.inflight
  queued : t.queued = s.queued
  trace : t.trace = s.trace
  data : s.inFlight = true → t.data = s.data

theorem KeepsControl.inFlight (h : KeepsControl s t) : t.inFlight = s.inFlight := by
  rw [State.inFlight, State.inFlight, h.inflight, h.queued]

/-- An access keeps the control state, or is a command's effect. -/
theorem exec_block_cases {i : Instr} (h : exec i s = .next t) :
    KeepsControl s t ∨
      ∃ c ea, Performs i s.phase c ea ∧ s.inFlight = false ∧ CommandReady c s ∧ t = commandEffect c ea s := by
  obtain ⟨-, v, rfl⟩ | ⟨v, -, rfl⟩ | ⟨v, -, rfl⟩ | ⟨v, -, hf, rfl⟩ | ⟨c, ea, hi, hp⟩ := exec_next_cases h
  · exact .inl (by constructor <;> simp)
  · exact .inl (by constructor <;> simp)
  · exact .inl (by constructor <;> simp)
  · exact .inl (by constructor <;> simp [hf])
  · obtain ⟨-, hf, hr, rfl⟩ := perform_next_iff.mp hp
    exact .inr ⟨c, ea, hi, hf, hr, rfl⟩

/-- A property of the block's control state is kept by every step if the commands' effects (R150 to R171)
and ENGINE's two steps (R180, R181) keep it. -/
theorem step_keeps {P : State → Prop} (frame : ∀ {s t}, KeepsControl s t → P s → P t)
    (write : ∀ {s c ea}, s.inFlight = false → CommandReady c s → P s → P (commandEffect c ea s))
    (stop : ∀ {s : State}, s.sto = true → P s → P s.stopDone)
    (completion : ∀ {s : State} {c a r o}, s.sto = false → s.inflight = some c → s.outcome c a r = some o →
      P s → P (s.complete o))
    (h : step s = .next t) (hs : P s) : P t := by
  obtain ⟨-, ⟨-, u, hu, rfl⟩ | ⟨s', u, hs', hu, rfl⟩⟩ := step_cases h
  · have hb : P s.takeBusMove := frame (by constructor <;> intros <;> rfl) hs
    refine frame (s := u) (by constructor <;> intros <;> rfl) ?_
    obtain ⟨a, r, -, ⟨hsto, rfl⟩ | ⟨hsto, c, o, hc, ho, rfl⟩⟩ := engineStep_cases hu
    · exact stop hsto hb
    · exact completion hsto hc ho hb
  · have hb : P s' := by
      obtain ⟨rfl, -⟩ | ⟨rfl, -⟩ := hs'
      · exact hs
      · exact frame (by constructor <;> intros <;> rfl) hs
    refine frame (s := u) (by constructor <;> intros <;> rfl) ?_
    obtain ⟨d, rfl, -⟩ | ⟨i, v, hv, d, hd, -⟩ := hostStep_cases hu
    · exact frame (by constructor <;> intros <;> rfl) hb
    · have hpv : P v := by
        obtain hk | ⟨c, ea, -, hf, hr, rfl⟩ := exec_block_cases hv
        · exact frame hk hb
        · exact write hf hr hb
      obtain rfl | rfl := hd <;> exact frame (by constructor <;> intros <;> rfl) hpv

end Sys2Proof.Machine

end

/-! ### What a HOST step can do, with its access and what is left to do (R225 to R240) -/

section

namespace Sys2Proof.Machine

variable {s t : State}

/-- The register access an operation of the HOST makes, if it makes one. -/
def HostOp.instr (op : HostOp) (s : State) : Option Instr :=
  match op with
  | .access w => some (s.fetch w)
  | .poll _ => some .rdCtrl
  | .check _ _ => some .rdStatus
  | .loadData a => (memRead s.driver.mem a).map .wrData
  | .storeData _ => some .rdData
  | .call _ _ | .ret _ => none

/-- What an operation leaves to do, where `rest` comes after it: that, the poll again, the abort of the
operation in progress, or a procedure before it. -/
def LeftToDo (rest ops : List HostOp) : Prop :=
  ops = rest ∨ (∃ n, ops = .poll n :: rest) ∨ (∃ stop, ops = abortOps stop rest) ∨ ∃ p c, ops = expand p c ++ rest

theorem leftToDo_rest (rest : List HostOp) : LeftToDo rest rest := .inl rfl

theorem leftToDo_abort (stop : Bool) (rest : List HostOp) : LeftToDo rest (abortOps stop rest) :=
  .inr (.inr (.inl ⟨stop, rfl⟩))

theorem leftToDo_afterPoll (left : Option Nat) (v : Byte) (rest : List HostOp) :
    LeftToDo rest (afterPoll left v rest) := by
  unfold afterPoll
  split
  · exact leftToDo_rest rest
  · split
    · exact .inr (.inl ⟨_, rfl⟩)
    · exact leftToDo_abort _ rest
    · exact leftToDo_abort _ rest
    · exact .inr (.inl ⟨_, rfl⟩)

theorem leftToDo_afterCheck (expected : Byte) (stop : Bool) (v : Byte) (rest : List HostOp) :
    LeftToDo rest (afterCheck expected stop v rest) := by
  unfold afterCheck
  split
  · exact leftToDo_rest rest
  · exact leftToDo_abort _ rest

/-- A HOST step idles, or does its next operation: a change of the HOST alone, or one access and a change of
the HOST. -/
theorem hostStep_next_cases (h : hostStep s = .next t) :
    t = s ∨ ∃ op rest, s.driver.ops = op :: rest ∧ LeftToDo rest t.driver.ops ∧
      ((∃ d, t = s.setDriver d) ∨
        ∃ i v, op.instr s = some i ∧ exec i s = .next v ∧ ∃ d, t = (v.countAccess i.isWrite).setDriver d) := by
  unfold hostStep at h
  split at h
  · cases h
    exact .inl rfl
  · next op rest ho =>
    refine .inr ⟨op, rest, ho, ?_⟩
    have access : ∀ {i f}, mapNext f (hostAccess i s) = .next t → op.instr s = some i →
        (∀ v : State, ∃ d, f v = v.setDriver d ∧ LeftToDo rest d.ops) →
        LeftToDo rest t.driver.ops ∧ ((∃ d, t = s.setDriver d) ∨
          ∃ i v, op.instr s = some i ∧ exec i s = .next v ∧ ∃ d, t = (v.countAccess i.isWrite).setDriver d) := by
      intro i f h hi hf
      rw [hostAccess_eq_mapNext, mapNext_mapNext] at h
      obtain ⟨v, hv, rfl⟩ := mapNext_next_iff.mp h
      obtain ⟨d, hd, hleft⟩ := hf (v.countAccess i.isWrite)
      rw [hd]
      exact ⟨hleft, .inr ⟨i, v, hi, hv, d, rfl⟩⟩
    unfold hostOp at h
    split at h
    · exact access h rfl fun v => ⟨_, rfl, leftToDo_rest rest⟩
    · cases h
      exact ⟨leftToDo_abort _ rest, .inl ⟨_, rfl⟩⟩
    · exact access h rfl fun v => ⟨_, rfl, leftToDo_afterPoll _ _ rest⟩
    · exact access h rfl fun v => ⟨_, rfl, leftToDo_afterCheck _ _ _ rest⟩
    · next a =>
      split at h
      · next b hb => exact access h (by rw [HostOp.instr, hb]; rfl) fun v => ⟨_, rfl, leftToDo_rest rest⟩
      · cases h
    · exact access h rfl fun v => ⟨_, rfl, leftToDo_rest rest⟩
    · split at h
      · cases h
        exact ⟨.inr (.inr (.inr ⟨_, _, rfl⟩)), .inl ⟨_, rfl⟩⟩
      · cases h
    · cases h
      exact ⟨leftToDo_rest rest, .inl ⟨_, rfl⟩⟩

end Sys2Proof.Machine

end

/-! ### The block's invariants (R41) and the outcome sets (R183) are kept by every step -/

section

namespace Sys2Proof.Machine

variable {s t : State}

/-- A command with a non-empty outcome set goes in flight: what every trigger but STOP and a queued START
does (R150, R151, R160 to R163). -/
structure Launches (s t : State) : Prop where
  /-- the command in flight, and the EA and STA written -/
  effect : ∃ k e a, t = { s with int := false, ea := e, sta := a, en := true, inflight := some k } ∧
    (s.outcome k .success 0).isSome = true
  /-- no stop is pending, unless in a phase in which none can be (R41 item 7) -/
  noStop : s.sto = true → s.phase ≠ .idle

/-- The five kinds of effect a command's write has where it goes on. -/
theorem commandEffect_cases {c : Command} {ea : Bool} (hr : CommandReady c s) :
    (c = .enable ∧
      commandEffect c ea s =
        { s with ea := ea, sta := false, en := true, phase := if s.phase = .off then .idle else s.phase }) ∨
    (c = .disable ∧ (s.phase = .off ∨ s.phase = .idle ∧ s.sto = false) ∧
      commandEffect c ea s = { s with ea := ea, sta := false, en := false, phase := .off }) ∨
    (c = .stop ∧ s.phase ∉ [Phase.off, .started, .repStarted, .mrSlaAck, .mrDataAck] ∧
      commandEffect c ea s =
        { s with
          int := false, ea := ea, sta := false, sto := true, en := true, phase := .idle
          trace := if owner s.phase then s.trace ++ [.stop] else s.trace }) ∨
    (c = .start ∧ s.sto = true ∧ (s.phase = .idle ∨ s.phase = .arbLost) ∧
      commandEffect c ea s = { s with int := false, ea := ea, sta := true, en := true, queued := true }) ∨
    Launches s (commandEffect c ea s) := by
  have ha := hr.admitted
  cases c with
  | enable => exact .inl ⟨rfl, rfl⟩
  | disable =>
    have hd := hr.disable rfl
    simp only [disableAdmitted, Bool.or_eq_true, decide_eq_true_eq, Bool.and_eq_true, Bool.not_eq_true',
      busy_eq_false_iff] at hd
    exact .inr (.inl ⟨rfl, hd.imp_right fun ⟨hp, _, _, hs⟩ => ⟨hp, hs⟩, rfl⟩)
  | stop =>
    refine .inr (.inr (.inl ⟨rfl, ?_, rfl⟩))
    revert ha
    cases s.phase <;> decide
  | start =>
    have hp : s.phase = .idle ∨ s.phase = .arbLost := by simpa [admitted] using ha
    cases hs : s.sto with
    | true => exact .inr (.inr (.inr (.inl ⟨rfl, rfl, hp, by simp [commandEffect, hs]⟩)))
    | false =>
      have ho : (s.outcome .start .success 0).isSome = true := by
        obtain hp | hp := hp <;> simp [State.outcome, outcome, hp, plainRow]
      exact .inr (.inr (.inr (.inr ⟨⟨.start, ea, true, by simp [commandEffect, hs], ho⟩, by simp [hs]⟩)))
  | repStart =>
    have hp : s.phase = .mtDataAck := by simpa [admitted] using ha
    exact .inr (.inr (.inr (.inr
      ⟨⟨.start, ea, true, rfl, by simp [State.outcome, outcome, hp, plainRow]⟩, by simp [hp]⟩)))
  | transmitAddr =>
    obtain ⟨b, hb⟩ := Option.ne_none_iff_exists'.mp (hr.data (.inl rfl))
    have hp : s.phase = .started ∨ s.phase = .repStarted := by simpa [admitted] using ha
    refine .inr (.inr (.inr (.inr ⟨⟨.transmit, ea, false, rfl, ?_⟩, ?_⟩)))
    · obtain hp | hp := hp <;> cases hd : slaIsRead b <;>
        simp [State.outcome, outcome, hp, hb, hd, transmitRow]
    · obtain hp | hp := hp <;> simp [hp]
  | transmitData =>
    obtain ⟨b, hb⟩ := Option.ne_none_iff_exists'.mp (hr.data (.inr rfl))
    have hp : s.phase = .mtSlaAck ∨ s.phase = .mtDataAck := by simpa [admitted] using ha
    refine .inr (.inr (.inr (.inr ⟨⟨.transmit, ea, false, rfl, ?_⟩, ?_⟩))) <;>
      obtain hp | hp := hp <;> simp [State.outcome, outcome, hp, hb, transmitRow]
  | receiveAck =>
    have hp : s.phase = .mrSlaAck ∨ s.phase = .mrDataAck := by simpa [admitted] using ha
    refine .inr (.inr (.inr (.inr ⟨⟨.recvAck, true, false, rfl, ?_⟩, ?_⟩))) <;>
      obtain hp | hp := hp <;> simp [State.outcome, outcome, hp, plainRow]
  | receiveNack =>
    have hp : s.phase = .mrSlaAck ∨ s.phase = .mrDataAck := by simpa [admitted] using ha
    refine .inr (.inr (.inr (.inr ⟨⟨.recvNack, false, false, rfl, ?_⟩, ?_⟩))) <;>
      obtain hp | hp := hp <;> simp [State.outcome, outcome, hp, plainRow]

/-- Nothing has an outcome in Off (R172, R183). -/
theorem outcome_off {e : Bool} {c : Cmd} {d : Option Byte} {a : Answer} {r : Byte} :
    outcome e c .off d a r = none := by
  cases c <;> cases d <;> rfl

/-- The phases a row's success member leads to. -/
abbrev successPhases : List Phase :=
  [.started, .repStarted, .mtSlaAck, .mrSlaAck, .mtDataAck, .mrDataAck, .mrDataNack]

/-- The phases a Nack leads to. -/
abbrev nackPhases : List Phase := [.mtSlaNack, .mrSlaNack, .mtDataNack]

/-- The phases an error member leads to. -/
abbrev errorPhases : List Phase := [.arbLost, .busError]

/-- Where each answer leads (R183). -/
theorem outcome_phase_cases {e : Bool} {c : Cmd} {p : Phase} {d : Option Byte} {a : Answer} {r : Byte}
    {o : Completion} (h : outcome e c p d a r = some o) :
    (a = .success ∧ o.phase ∈ successPhases) ∨ (a = .nack ∧ o.phase ∈ nackPhases) ∨
      ((a = .lost ∨ a = .busErr) ∧ o.phase ∈ errorPhases) := by
  obtain ⟨ha, ⟨-, -, rfl⟩ | ⟨-, -, rfl⟩ | ⟨b, -, -, -, rfl⟩ | ⟨b, -, -, -, rfl⟩ | ⟨-, -, rfl⟩ | ⟨-, -, rfl⟩⟩ |
    ⟨ha, b, -, -, ⟨-, rfl⟩ | ⟨-, rfl⟩⟩ | ⟨⟨ha, hp, -⟩ | ⟨ha, -, hp, -⟩, -⟩ := outcome_cases h
  case inl.inr.inr.inl | inr.inl.inl => cases slaIsRead b <;> simp [ha]
  all_goals simp [*]

/-- No completion leads to Off or Idle (R183). -/
theorem outcome_phase_ne {e : Bool} {c : Cmd} {p : Phase} {d : Option Byte} {a : Answer} {r : Byte}
    {o : Completion} (h : outcome e c p d a r = some o) : o.phase ≠ .off ∧ o.phase ≠ .idle := by
  have hne : ∀ p ∈ successPhases ++ nackPhases ++ errorPhases, p ≠ .off ∧ p ≠ .idle := by decide
  refine hne _ ?_
  obtain ⟨-, hp⟩ | ⟨-, hp⟩ | ⟨-, hp⟩ := outcome_phase_cases h
  · exact List.mem_append_left _ (List.mem_append_left _ hp)
  · exact List.mem_append_left _ (List.mem_append_right _ hp)
  · exact List.mem_append_right _ hp

/-! #### The seven invariants -/

theorem blockInv_of_keepsControl (hk : KeepsControl s t) (hs : BlockInv s) : BlockInv t := by
  simpa only [BlockInv, hk.phase, hk.int, hk.sto, hk.en, hk.inflight, hk.queued] using hs

/-- In Idle INT is 0 (R41 item 5). -/
theorem int_of_idle (hb : BlockInv s) (hp : s.phase = .idle) : s.int = false := by
  obtain ⟨-, -, -, -, hint, -, -⟩ := hb
  refine Bool.eq_false_iff.mpr fun h => ?_
  obtain ⟨-, -, hni⟩ := hint h
  exact hni hp

/-- With a command in flight INT is 0 and nothing else is pending (R41 item 2). -/
theorem blockInv_inflight (hb : BlockInv s) (hi : s.inflight ≠ none) :
    s.int = false ∧ s.sto = false ∧ s.queued = false := by
  obtain ⟨-, hflight, -⟩ := hb
  exact hflight hi

/-- A START is queued only behind a pending stop (R41 item 3). -/
theorem blockInv_queued (hb : BlockInv s) (hq : s.queued = true) :
    s.sto = true ∧ s.inflight = none ∧ s.int = false := by
  obtain ⟨-, -, hqueued, -⟩ := hb
  exact hqueued hq

/-- In Off nothing is pending (R41 item 6). -/
theorem blockInv_off (hb : BlockInv s) (hp : s.phase = .off) :
    s.inflight = none ∧ s.sto = false ∧ s.queued = false ∧ s.int = false := by
  obtain ⟨-, -, -, -, -, hoff, -⟩ := hb
  exact hoff hp

/-- A command's write keeps the invariants. -/
theorem blockInv_commandEffect {c : Command} {ea : Bool} (hf : s.inFlight = false) (hr : CommandReady c s)
    (hs : BlockInv s) : BlockInv (commandEffect c ea s) := by
  obtain ⟨hi, hq⟩ := inFlight_eq_false_iff.mp hf
  obtain ⟨hen, -, -, hsto, hint, hoff, hidle⟩ := hs
  obtain ⟨-, ht⟩ | ⟨-, hp, ht⟩ | ⟨-, hp, ht⟩ | ⟨-, hst, hp, ht⟩ | ⟨⟨k, e, a, ht, ho⟩, hst⟩ :=
    commandEffect_cases (ea := ea) hr <;> rw [ht]
  · by_cases hp : s.phase = .off <;> simp_all [BlockInv]
  · obtain hp | hp := hp <;> simp_all [BlockInv]
  · simp_all [BlockInv]
  · simp_all [BlockInv]
  · have hp : s.phase ≠ .off := by
      intro hp
      simp [State.outcome, hp, outcome_off] at ho
    have hsf : s.sto = false := Bool.eq_false_iff.mpr fun h => hst h (hidle h)
    simp_all [BlockInv]

/-- ENGINE's stop step keeps the invariants (R180). -/
theorem blockInv_stopDone (hsto : s.sto = true) (hs : BlockInv s) : BlockInv s.stopDone := by
  obtain ⟨hen, hflight, hqueued, hint, -, -, hidle⟩ := hs
  rw [stopDone_eq]
  cases hq : s.queued <;> simp_all [BlockInv]

/-- A completion keeps the invariants (R181): it leads to an active phase. -/
theorem blockInv_complete {c : Cmd} {a : Answer} {r : Byte} {o : Completion} (hc : s.inflight = some c)
    (ho : s.outcome c a r = some o) (hs : BlockInv s) : BlockInv (s.complete o) := by
  obtain ⟨hen, hflight, -, -, -, hoff, -⟩ := hs
  obtain ⟨hne, hni⟩ := outcome_phase_ne ho
  have hp : s.phase ≠ .off := fun hp => by simp [hp, hc] at hoff
  simp_all [BlockInv]

/-- Settles O39: each kind of write and both ENGINE steps keep R41's seven items. -/
theorem everyStepKeepsTheBlockInvariants : Obligations.EveryStepKeepsTheBlockInvariants :=
  fun _ _ hs h => step_keeps (P := BlockInv) blockInv_of_keepsControl blockInv_commandEffect
    blockInv_stopDone (fun _ => blockInv_complete) h hs

/-! #### Flights are completable -/

theorem completionReady_of_inflight {c : Cmd} (hc : s.inflight = some c) :
    s.completionReady = (s.outcome c .success 0).isSome := by
  simp only [State.completionReady, hc]

theorem flightInv_of_none (h : s.inflight = none) : FlightInv s := fun hne => absurd h hne

/-- What keeps the control state keeps the outcome set of the command in flight. -/
theorem flightInv_of_keepsControl (hk : KeepsControl s t) (hs : FlightInv s) : FlightInv t := by
  intro ht
  have hsi : s.inflight ≠ none := hk.inflight ▸ ht
  have hd : t.data = s.data := hk.data (inFlight_eq_true_iff.mpr (.inl hsi))
  simpa only [State.completionReady, State.outcome, hk.inflight, hk.phase, hd] using hs hsi

/-- A trigger's command goes in flight where it has an outcome; any other write puts nothing in flight. -/
theorem flightInv_commandEffect {c : Command} {ea : Bool} (hf : s.inFlight = false) (hr : CommandReady c s) :
    FlightInv (commandEffect c ea s) := by
  obtain ⟨hi, -⟩ := inFlight_eq_false_iff.mp hf
  obtain ⟨-, ht⟩ | ⟨-, -, ht⟩ | ⟨-, -, ht⟩ | ⟨-, -, -, ht⟩ | ⟨⟨k, e, a, ht, ho⟩, -⟩ :=
    commandEffect_cases (ea := ea) hr <;> rw [ht]
  case inr.inr.inr.inr => exact fun _ => ho
  all_goals exact flightInv_of_none hi

/-- The START a stop step lets begin has an outcome, since the phase is Idle (R41 item 7, R183). -/
theorem flightInv_stopDone (hsto : s.sto = true) (hb : BlockInv s) (hs : FlightInv s) :
    FlightInv s.stopDone := by
  obtain ⟨-, -, -, -, -, -, hidle⟩ := hb
  rw [stopDone_eq]
  cases hq : s.queued
  · exact hs
  · intro _
    simp [State.completionReady, State.outcome, hidle hsto, outcome, plainRow]

/-- Settles O40: a command goes in flight only where its row of R183 is not empty, and nothing changes the
row while it is in flight. R41's items are carried along, since a stop step's START needs item 7. -/
theorem everyStepKeepsFlightsCompletable : Obligations.EveryStepKeepsFlightsCompletable := by
  intro s t hb hs h
  refine (step_keeps (P := fun s => BlockInv s ∧ FlightInv s) ?_ ?_ ?_ ?_ h ⟨hb, hs⟩).2
  · exact fun hk hs => ⟨blockInv_of_keepsControl hk hs.1, flightInv_of_keepsControl hk hs.2⟩
  · exact fun hf hr hs => ⟨blockInv_commandEffect hf hr hs.1, flightInv_commandEffect hf hr⟩
  · exact fun hsto hs => ⟨blockInv_stopDone hsto hs.1, flightInv_stopDone hsto hs.1 hs.2⟩
  · exact fun _ hc ho hs => ⟨blockInv_complete hc ho hs.1, flightInv_of_none rfl⟩

/-! #### STA in Idle -/

/-- Settles O41: every write but a START's clears STA or leaves Idle unreached, and a START is in flight or
queued until it completes into another phase. -/
theorem everyStepKeepsStaForAStartInIdle : Obligations.EveryStepKeepsStaForAStartInIdle := by
  intro s t hs h
  refine step_keeps (P := StaInv) ?_ ?_ ?_ ?_ h hs
  · intro s t hk hs
    simpa only [StaInv, hk.phase, hk.sta, hk.inFlight] using hs
  · intro s c ea hf hr hs
    obtain ⟨-, ht⟩ | ⟨-, -, ht⟩ | ⟨-, -, ht⟩ | ⟨-, -, -, ht⟩ | ⟨⟨k, e, a, ht, -⟩, -⟩ :=
      commandEffect_cases (ea := ea) hr <;> rw [ht] <;> simp [StaInv, State.inFlight]
  · intro s hsto hs
    rw [stopDone_eq]
    cases hq : s.queued <;> simp_all [StaInv, State.inFlight]
  · intro s c a r o _ _ ho _ hp
    exact absurd hp (outcome_phase_ne ho).2

/-! #### The trace grammar -/

theorem expectAfter_append (trace : List BusEvent) (e : BusEvent) :
    expectAfter (trace ++ [e]) = (expectAfter trace).bind fun x => x.next e := by
  simp [expectAfter]

/-- An event that the grammar has from a phase's nonterminal keeps the trace in the grammar. -/
theorem traceInv_event {e : BusEvent} {p : Phase} (hs : TraceInv s)
    (he : (phaseExpect s.phase).next e = some (phaseExpect p)) :
    expectAfter (s.trace ++ [e]) = some (phaseExpect p) := by
  rw [expectAfter_append, hs]
  exact he

/-- A lost arbitration and a bus error end the transaction wherever more than a Stop may come (R201). -/
theorem next_failed {x : Expect} (hx : x ≠ .nacked) :
    x.next .lost = some .between ∧ x.next .busErr = some .between := by
  cases x with
  | nacked => exact absurd rfl hx
  | _ => exact ⟨rfl, rfl⟩

/-- Every member of an outcome set is a move of the grammar from the phase's nonterminal (R183, R201). -/
theorem outcome_next {e : Bool} {c : Cmd} {p : Phase} {d : Option Byte} {a : Answer} {r : Byte}
    {o : Completion} (h : outcome e c p d a r = some o) :
    (phaseExpect p).next o.event = some (phaseExpect o.phase) := by
  obtain ⟨-, ⟨-, hp, rfl⟩ | ⟨-, rfl, rfl⟩ | ⟨b, -, -, hp, rfl⟩ | ⟨b, -, -, hp, rfl⟩ | ⟨-, hp, rfl⟩ |
      ⟨-, hp, rfl⟩⟩ |
    ⟨-, b, -, -, ⟨hp, rfl⟩ | ⟨hp, rfl⟩⟩ | ⟨hfail, hrow⟩ := outcome_cases h
  case inl.inr.inl => rfl
  case inl.inr.inr.inl =>
    obtain rfl | rfl := hp <;> cases hb : slaIsRead b <;> simp_all [phaseExpect, Expect.next, slaIsRead]
  case inr.inl.inl => obtain rfl | rfl := hp <;> cases slaIsRead b <;> rfl
  case inr.inr =>
    have hx : phaseExpect p ≠ .nacked := by
      obtain ⟨-, hp, -⟩ | ⟨-, -, hp, -⟩ | ⟨-, hp, -⟩ := hrow <;> revert hp <;> cases p <;> decide
    obtain ⟨-, ho, he⟩ | ⟨-, -, ho, he⟩ := hfail <;> rw [ho, he]
    · exact (next_failed hx).1
    · exact (next_failed hx).2
  all_goals obtain rfl | rfl := hp <;> rfl

/-- STOP's event is the grammar's way out of each owned phase that admits STOP (R152, R165, R201). -/
theorem next_stop {p : Phase} (hp : p ∉ [Phase.off, .started, .repStarted, .mrSlaAck, .mrDataAck])
    (ho : owner p = true) : (phaseExpect p).next .stop = some (phaseExpect .idle) := by
  revert hp ho
  cases p <;> decide

/-- A phase in which the block does not own the bus stands between transactions (R33, R201). -/
theorem phaseExpect_of_not_owner {p : Phase} (ho : owner p = false) : phaseExpect p = .between := by
  revert ho
  cases p <;> decide

/-- Settles O43: every event a step adds is a move of the grammar between the nonterminals of the two
phases, and a phase changed without an event stands between transactions before and after. -/
theorem everyStepKeepsTheTraceGrammar : Obligations.EveryStepKeepsTheTraceGrammar := by
  intro s t hs h
  refine step_keeps (P := TraceInv) ?_ ?_ ?_ ?_ h hs
  · intro s t hk hs
    simpa only [TraceInv, hk.phase, hk.trace] using hs
  · intro s c ea _ hr hs
    obtain ⟨-, ht⟩ | ⟨-, hp, ht⟩ | ⟨-, hp, ht⟩ | ⟨-, -, -, ht⟩ | ⟨⟨k, e, a, ht, -⟩, -⟩ :=
      commandEffect_cases (ea := ea) hr <;> rw [ht]
    case inr.inr.inl =>
      cases ho : owner s.phase with
      | true => exact traceInv_event hs (next_stop hp ho)
      | false => exact hs.trans (by rw [phaseExpect_of_not_owner ho]; rfl)
    case inl =>
      by_cases hp : s.phase = .off <;> simpa [TraceInv, hp, phaseExpect] using hs
    case inr.inl =>
      obtain hp | ⟨hp, -⟩ := hp <;> simpa [TraceInv, hp, phaseExpect] using hs
    all_goals exact hs
  · intro s _ hs
    rw [stopDone_eq]
    exact hs
  · intro s c a r o _ _ ho hs
    exact traceInv_event (s := s) hs (outcome_next ho)

end Sys2Proof.Machine

end

/-! ### The CTRL write and the commands it selects (R75, R76, R81, R107) -/

section

namespace Sys2Proof.Machine

variable {s t : State}

theorem hostWrite_hostWrite (s : State) (k : Answered) : hostWrite s (hostWrite s k) = hostWrite s k := by
  unfold hostWrite unlessMarked
  cases s.fault <;> cases s.refused <;> cases s.inFlight <;> rfl

/-- A command's own write checks what a CTRL write checks before it (R266). -/
theorem hostWrite_perform (c : Command) (ea : Bool) (s : State) : hostWrite s (perform c ea s) = perform c ea s := by
  cases c <;> exact hostWrite_hostWrite s _

/-- A CTRL write that passes the checks and selects a command is that command's row (R76). -/
theorem exec_wrCtrl_of_selected {v : Byte} {c : Command} (hd : ctrlDefect v = none)
    (hc : selectCommand v s.phase = some c) : exec (.wrCtrl v) s = exec (commandInstr c (ctrlEa v)) s := by
  rw [← perform_eq_exec, ← hostWrite_perform]
  simp only [exec, execWrCtrl, hd, hc]

theorem exec_decodeCtrlWrite (s : State) (v : Byte) :
    exec (decodeCtrlWrite s.phase v) s = exec (.wrCtrl v) s := by
  unfold decodeCtrlWrite
  cases hd : ctrlDefect v with
  | some d => rfl
  | none =>
    cases hc : selectCommand v s.phase with
    | some c => exact (exec_wrCtrl_of_selected hd hc).symm
    | none => rfl

/-- A word that writes CTRL has the plain access form of that write (R72). -/
theorem decodeAccess_of_top {w : AccessWord} (h : w.extractLsb' 8 3 = 7) :
    decodeAccess w = .wrCtrl (accessVal w) :=
  (congrArg decodeAccess (eq_ctrlWord_of_top h)).trans (decodeAccess_accessWord true .ctrl _)

/-- Settles O6: the decoder differs from the access form only on a CTRL write that selects a command, and
performing it is what that write does. -/
theorem commandRowAndPlainAccessAgree : Obligations.CommandRowAndPlainAccessAgree := by
  intro s w
  unfold decode
  split
  · next h => rw [exec_decodeCtrlWrite, decodeAccess_of_top h]
  · rfl

/-- The fields of a CTRL value that fail a check of R75, or that none fails, bit by bit. -/
theorem ctrlDefect_eq (v : Byte) :
    ctrlDefect v =
      if v.getLsbD 3 = true ∨ v.getLsbD 1 = true ∨ v.getLsbD 0 = true then some .reservedBit
      else if v.getLsbD 7 = false ∧ (v.getLsbD 5 = true ∨ v.getLsbD 4 = true) then some .requestWithoutTrigger
      else if v.getLsbD 7 = true ∧ v.getLsbD 2 = false then some .triggerWhileDisabled
      else if v.getLsbD 7 = true ∧ v.getLsbD 5 = true ∧ v.getLsbD 4 = true then some .startAndStop
      else none := by
  revert v
  decide

theorem hostWrite_of_free (hm : Unmarked s) (hf : s.inFlight = false) (k : Answered) : hostWrite s k = k := by
  rw [hostWrite, unlessMarked_of_unmarked hm.1 hm.2, hf, if_neg Bool.false_ne_true]

/-- The reasons a command's write is refused with, past the in-flight check (R165, R171). -/
theorem perform_ne_refused {c : Command} {ea : Bool} {r : Refusal} (hm : Unmarked s) (hf : s.inFlight = false)
    (hr : r ≠ .notAdmitted) (hr' : r ≠ .disableWhileActive) : perform c ea s ≠ .refused r := by
  have admission : ∀ c k, k ≠ .refused r → command c s k ≠ .refused r := by
    intro c k hk
    rw [command, hostWrite_of_free hm hf]
    split
    · exact hk
    · simpa [refuse] using hr.symm
  have withByte : ∀ u, withData s (fun _ => .next u) ≠ .refused r := by
    intro u
    cases hd : s.data <;> simp [withData, hd, raiseFault]
  cases c with
  | disable =>
    refine admission _ _ ?_
    split
    · simp
    · simpa [refuse] using hr'.symm
  | transmitAddr | transmitData => exact admission _ _ (withByte _)
  | _ => exact admission _ _ (by simp)

/-- Settles O17: `ctrlDefect` names the first check that fails, and past the checks the refusals are the
selection's and the commands' own. -/
theorem controlValueChecksComeInOrder : Obligations.ControlValueChecksComeInOrder := by
  intro s v hm hi hq
  have hf : s.inFlight = false := inFlight_eq_false_iff.mpr ⟨hi, hq⟩
  have defect : ∀ d, ctrlDefect v = some d → exec (.wrCtrl v) s = .refused (defectReason d) := by
    intro d hd
    simp only [exec, execWrCtrl, hostWrite_of_free hm hf, hd, refuse]
  have hv := ctrlDefect_eq v
  split_ifs at hv ⊢
  · exact defect _ hv
  · exact defect _ hv
  · exact defect _ hv
  · exact defect _ hv
  · intro r hr
    have hne : r ≠ .notAdmitted ∧ r ≠ .disableWhileActive := by
      constructor <;> rintro rfl <;> simp at hr
    cases hc : selectCommand v s.phase with
    | none =>
      simpa [exec, execWrCtrl, hostWrite_of_free hm hf, hv, hc, refuse] using hne.1.symm
    | some c =>
      rw [exec_wrCtrl_of_selected hv hc, ← perform_eq_exec]
      exact perform_ne_refused hm hf hne.1 hne.2

theorem eaBit_getLsbD : ∀ (ea : Bool), ∀ i < 8, (eaBit ea).getLsbD i = (ea && decide (i = 6)) := by
  decide

/-- A CTRL value with a shape's bits is that shape with its own EA (R73, R77). -/
theorem ctrlValue_of_bits {v shape : Byte} (h7 : v.getLsbD 7 = shape.getLsbD 7)
    (h5 : v.getLsbD 5 = shape.getLsbD 5) (h4 : v.getLsbD 4 = shape.getLsbD 4)
    (h3 : v.getLsbD 3 = shape.getLsbD 3) (h2 : v.getLsbD 2 = shape.getLsbD 2)
    (h1 : v.getLsbD 1 = shape.getLsbD 1) (h0 : v.getLsbD 0 = shape.getLsbD 0)
    (h6 : shape.getLsbD 6 = false) : v = shape ||| eaBit (v.getLsbD 6) := by
  refine BitVec.eq_of_getLsbD_eq fun i hi => ?_
  rw [BitVec.getLsbD_or, eaBit_getLsbD _ i hi]
  interval_cases i <;> simp only [*] <;> simp

theorem exec_wrCtrl_enable (s : State) (ea : Bool) :
    exec (.wrCtrl (0x04 ||| eaBit ea)) s = exec (.enable ea) s := by
  rw [← exec_decodeCtrlWrite, decodeCtrlWrite_enable]

theorem exec_wrCtrl_disable (s : State) (ea : Bool) :
    exec (.wrCtrl (0x00 ||| eaBit ea)) s = exec (.disable ea) s := by
  rw [← exec_decodeCtrlWrite, decodeCtrlWrite_disable]

theorem exec_wrCtrl_start (s : State) (ea : Bool) :
    exec (.wrCtrl (0xA4 ||| eaBit ea)) s =
      if s.phase = .mtDataAck then exec (.repStart ea) s else exec (.start ea) s := by
  rw [← exec_decodeCtrlWrite, decodeCtrlWrite_start]
  split <;> rfl

theorem exec_wrCtrl_stop (s : State) (ea : Bool) :
    exec (.wrCtrl (0x94 ||| eaBit ea)) s = exec (.stop ea) s := by
  rw [← exec_decodeCtrlWrite, decodeCtrlWrite_stop]

theorem exec_wrCtrl_continue {ea : Bool} {c : Command} (hc : continueCommand ea s.phase = some c) :
    exec (.wrCtrl (0x84 ||| eaBit ea)) s = exec (commandInstr c ea) s := by
  rw [← exec_decodeCtrlWrite, decodeCtrlWrite_continue, hc]

/-- Where no row continues, the continue form is refused (R76). -/
theorem exec_wrCtrl_continue_none {ea : Bool} (hm : Unmarked s) (hf : s.inFlight = false)
    (hc : continueCommand ea s.phase = none) :
    exec (.wrCtrl (0x84 ||| eaBit ea)) s = .refused .notAdmitted := by
  have hd : ctrlDefect (0x84 ||| eaBit ea) = none := by cases ea <;> decide
  have hs : selectCommand (0x84 ||| eaBit ea) s.phase = continueCommand ea s.phase := by cases ea <;> rfl
  simp only [exec, execWrCtrl, hostWrite_of_free hm hf, hd, hs, hc, refuse]

/-- The rows of the continue form (R76). -/
theorem continueCommand_rows (ea : Bool) (p : Phase) :
    (p ∈ [Phase.started, .repStarted] → continueCommand ea p = some .transmitAddr) ∧
    (p ∈ [Phase.mtSlaAck, .mtDataAck] → continueCommand ea p = some .transmitData) ∧
    (p ∈ [Phase.mrSlaAck, .mrDataAck] →
      continueCommand ea p = some (if ea then .receiveAck else .receiveNack)) ∧
    (p ∉ [Phase.started, .repStarted, .mtSlaAck, .mtDataAck, .mrSlaAck, .mrDataAck] →
      continueCommand ea p = none) := by
  revert ea
  cases p <;> decide

/-- Settles O18: the bits make the value one of R77's shapes, and each shape is its row. -/
theorem controlWriteSelectsByValueAndPhase : Obligations.ControlWriteSelectsByValueAndPhase := by
  intro s v h3 h1 h0
  obtain ⟨addr, data, recv, other⟩ := continueCommand_rows (v.getLsbD 6) s.phase
  refine ⟨fun h7 h5 h4 h2 => ?_, fun h7 h5 h4 h2 => ?_, fun h7 h5 h4 h2 => ?_, fun h7 h5 h4 h2 => ?_,
    fun h7 h5 h4 h2 => ?_⟩
  · rw [← exec_wrCtrl_enable, ← ctrlValue_of_bits (shape := 0x04) h7 h5 h4 h3 h2 h1 h0 rfl]
  · rw [← exec_wrCtrl_disable, ← ctrlValue_of_bits (shape := 0x00) h7 h5 h4 h3 h2 h1 h0 rfl]
  · rw [← exec_wrCtrl_start, ← ctrlValue_of_bits (shape := 0xA4) h7 h5 h4 h3 h2 h1 h0 rfl]
  · rw [← exec_wrCtrl_stop, ← ctrlValue_of_bits (shape := 0x94) h7 h5 h4 h3 h2 h1 h0 rfl]
  · have hv := ctrlValue_of_bits (shape := 0x84) h7 h5 h4 h3 h2 h1 h0 rfl
    refine ⟨fun hp => ?_, fun hp => ?_, fun hp => ?_, fun hp hm hi hq => ?_⟩
    · rw [hv, exec_wrCtrl_continue (addr hp), ← hv, commandInstr]
    · rw [hv, exec_wrCtrl_continue (data hp), ← hv, commandInstr]
    · rw [hv, exec_wrCtrl_continue (recv hp), ← hv]
      cases v.getLsbD 6 <;> rfl
    · rw [hv]
      exact exec_wrCtrl_continue_none hm (inFlight_eq_false_iff.mpr ⟨hi, hq⟩) (other hp)

end Sys2Proof.Machine

end

/-! ### The commands at their write (R150 to R171, R165) -/

section

namespace Sys2Proof.Machine

variable {s t : State}

/-- A command's row goes on with the command's effect where it is ready. -/
theorem exec_command {c : Command} {ea : Bool} (hm : Unmarked s) (hi : s.inflight = none)
    (hq : s.queued = false) (hr : CommandReady c s) :
    exec (commandInstr c ea) s = .next (commandEffect c ea s) := by
  rw [← perform_eq_exec]
  exact perform_next_iff.mpr ⟨hm, inFlight_eq_false_iff.mpr ⟨hi, hq⟩, hr, rfl⟩

theorem command_of_admitted {c : Command} (hm : Unmarked s) (hi : s.inflight = none) (hq : s.queued = false)
    (ha : admitted c s.phase = true) (k : Answered) : command c s k = k := by
  rw [command, hostWrite_of_free hm (inFlight_eq_false_iff.mpr ⟨hi, hq⟩), if_pos ha]

/-- A command's write is refused with NotAdmitted exactly by its column of the table (R165). -/
theorem command_notAdmitted_iff {c : Command} {k : Answered} (hm : Unmarked s) (hi : s.inflight = none)
    (hq : s.queued = false) (hk : k ≠ .refused .notAdmitted) :
    command c s k = .refused .notAdmitted ↔ admitted c s.phase = false := by
  rw [command, hostWrite_of_free hm (inFlight_eq_false_iff.mpr ⟨hi, hq⟩)]
  cases admitted c s.phase <;> simp [hk, refuse]

theorem withData_of_none {k : Byte → Answered} (hd : s.data = none) : withData s k = .fault .dataUnwritten := by
  rw [withData, hd, raiseFault]

theorem withData_next_ne_refused (u : State) (r : Refusal) : withData s (fun _ => .next u) ≠ .refused r := by
  cases hd : s.data <;> simp [withData, hd, raiseFault]

/-- Settles O21: START's column of R165 has both phases, and its effect branches on the pending stop. -/
theorem startBeginsOrQueues : Obligations.StartBeginsOrQueues := by
  intro s ea hm hi hq hp
  refine exec_command (c := .start) hm hi hq (commandReady_of_admitted ?_ (by decide))
  obtain hp | hp := hp <;> rw [hp] <;> rfl

/-- Settles O22: MtDataAck is REP_START's one phase. -/
theorem repeatedStartBegins : Obligations.RepeatedStartBegins := by
  intro s ea hm hi hq hp
  exact exec_command (c := .repStart) hm hi hq (commandReady_of_admitted (by rw [hp]; rfl) (by decide))

/-- Settles O23: the nine phases of STOP's column, by whether the block owns the bus. -/
theorem stopReleasesTheBus : Obligations.StopReleasesTheBus := by
  intro s ea hm hi hq
  have stop : admitted .stop s.phase = true → exec (.stop ea) s = .next (commandEffect .stop ea s) :=
    fun ha => exec_command hm hi hq (commandReady_of_admitted ha (by decide))
  constructor <;> intro hp
  · have hp' : admitted .stop s.phase = true ∧ owner s.phase = false := by
      revert hp
      cases s.phase <;> decide
    rw [stop hp'.1, commandEffect, hp'.2]
    rfl
  · have hp' : admitted .stop s.phase = true ∧ owner s.phase = true := by
      revert hp
      cases s.phase <;> decide
    rw [stop hp'.1, commandEffect, hp'.2]
    rfl

/-- Settles O25: past admission a transmit is its case on DATA. -/
theorem transmitsNeedData : Obligations.TransmitsNeedData := by
  intro s ea hm hi hq
  constructor <;> intro hp <;> constructor <;> intro hd
  · exact exec_command (c := .transmitAddr) hm hi hq
      ((commandReady_transmit_iff (.inl rfl)).mpr ⟨List.contains_iff_mem.mpr hp, hd⟩)
  · exact (command_of_admitted (c := .transmitAddr) hm hi hq (List.contains_iff_mem.mpr hp) _).trans
      (withData_of_none hd)
  · exact exec_command (c := .transmitData) hm hi hq
      ((commandReady_transmit_iff (.inr rfl)).mpr ⟨List.contains_iff_mem.mpr hp, hd⟩)
  · exact (command_of_admitted (c := .transmitData) hm hi hq (List.contains_iff_mem.mpr hp) _).trans
      (withData_of_none hd)

/-- DISABLE's condition (R171) with nothing in flight. -/
theorem disableAdmitted_iff (hi : s.inflight = none) (hq : s.queued = false) :
    disableAdmitted s = true ↔ s.phase = .off ∨ s.phase = .idle ∧ s.sto = false := by
  simp [disableAdmitted, busy_eq_false_iff, hi, hq]

/-- Settles O28: DISABLE is admitted in every phase, and its own condition decides. -/
theorem disableOnlyWhenIdle : Obligations.DisableOnlyWhenIdle := by
  intro s ea hm hi hq
  rw [← disableAdmitted_iff hi hq]
  refine ⟨fun hd => exec_command (c := .disable) hm hi hq (commandReady_disable_iff.mpr hd), fun hd => ?_⟩
  exact (command_of_admitted (c := .disable) hm hi hq rfl _).trans (if_neg hd)

/-- Settles O29: each command is refused by its own column, and its meaning past the table is never that
refusal. -/
theorem admissionFollowsTheTable : Obligations.AdmissionFollowsTheTable := by
  intro s ea hm hi hq
  have column : ∀ {c k} {l : List Phase}, k ≠ .refused .notAdmitted → admitted c s.phase = l.contains s.phase →
      (command c s k = .refused .notAdmitted ↔ s.phase ∉ l) := by
    intro c k l hk ha
    rw [command_notAdmitted_iff hm hi hq hk, ha, ← List.contains_iff_mem, Bool.not_eq_true]
  refine ⟨column (by simp) rfl, ?_, ?_, column (withData_next_ne_refused _ _) rfl,
    column (withData_next_ne_refused _ _) rfl, column (by simp) rfl, column (by simp) rfl⟩
  · exact (column (c := .repStart) (by simp) rfl).trans (by simp)
  · refine (column (c := .stop) (by simp) rfl).trans ?_
    cases s.phase <;> decide

/-- The ten CTRL values that pass R75: each shape with EA 0 and with EA 1 (R77). -/
theorem ctrlValue_eq_shape (ea : Bool) :
    (if ea then 0x44 else 0x04 : Byte) = 0x04 ||| eaBit ea ∧
    (if ea then 0x40 else 0x00 : Byte) = 0x00 ||| eaBit ea ∧
    (if ea then 0xE4 else 0xA4 : Byte) = 0xA4 ||| eaBit ea ∧
    (if ea then 0xD4 else 0x94 : Byte) = 0x94 ||| eaBit ea ∧
    (if ea then 0xC4 else 0x84 : Byte) = 0x84 ||| eaBit ea := by
  revert ea
  decide

/-- Settles O19: each value is its shape with EA, and each shape is its command's row, whose next state the
statements about the commands give. -/
theorem controlWriteCompletes : Obligations.ControlWriteCompletes := by
  intro s ea hm hi hq
  obtain ⟨enable, disable, start, stop, continues⟩ := ctrlValue_eq_shape ea
  obtain ⟨addr, data, recv, -⟩ := continueCommand_rows ea s.phase
  rw [enable, disable, start, stop, continues, exec_wrCtrl_enable, exec_wrCtrl_disable, exec_wrCtrl_start,
    exec_wrCtrl_stop]
  obtain ⟨notOwner, isOwner⟩ := stopReleasesTheBus s ea hm hi hq
  refine ⟨(enableSetsTheEnableBit.2 s ea hm).1 hi hq, (disableOnlyWhenIdle s ea hm hi hq).1, fun hp hs => ?_,
    fun hp hs => ?_, fun hp => ?_, notOwner, isOwner, fun hp hd => ?_, fun hp => ?_⟩
  · have hp' : (s.phase = .idle ∨ s.phase = .arbLost) ∧ s.phase ≠ .mtDataAck := by
      revert hp
      cases s.phase <;> decide
    rw [if_neg hp'.2, startBeginsOrQueues s ea hm hi hq hp'.1, if_neg (by simp [hs])]
  · rw [if_neg (by simp [hp]), startBeginsOrQueues s ea hm hi hq (.inl hp), if_pos hs]
  · rw [if_pos hp, repeatedStartBegins s ea hm hi hq hp]
  · obtain ⟨transmitAddr, transmitData⟩ := transmitsNeedData s ea hm hi hq
    obtain hp | hp := List.mem_append.mp (show s.phase ∈ [_, _] ++ [_, _] from hp)
    · rw [exec_wrCtrl_continue (addr hp)]
      exact (transmitAddr hp).1 hd
    · rw [exec_wrCtrl_continue (data hp)]
      exact (transmitData hp).1 hd
  · obtain ⟨ack, nack⟩ := receivesBeginWithTheirAcknowledge s hm hi hq hp
    rw [exec_wrCtrl_continue (recv hp)]
    cases ea
    · exact nack
    · exact ack

/-- What a command's write leaves in INT, EA, STA, STO and EN, as the bits of the value that selected it
(R107): STO and INT as they were or set and cleared. -/
theorem commandEffect_bits {c : Command} {ea : Bool} (hr : CommandReady c s)
    (hack : c = .receiveAck → ea = true) (hnack : c = .receiveNack → ea = false) :
    (commandEffect c ea s).ea = ea ∧
    (commandEffect c ea s).sta = decide (c = .start ∨ c = .repStart) ∧
    (commandEffect c ea s).en = decide (c ≠ .disable) ∧
    (commandEffect c ea s).sto = (s.sto || decide (c = .stop)) ∧
    (commandEffect c ea s).int = (s.int && decide (c = .enable ∨ c = .disable)) := by
  cases c with
  | start => cases hs : s.sto <;> simp [commandEffect, hs]
  | receiveAck => simp [commandEffect, hack]
  | receiveNack => simp [commandEffect, hnack]
  | _ => simp [commandEffect]

/-- The bits of a value that selects a command (R76). -/
theorem selectCommand_bits {v : Byte} {p : Phase} {c : Command} (hd : ctrlDefect v = none)
    (hc : selectCommand v p = some c) :
    v.getLsbD 5 = decide (c = .start ∨ c = .repStart) ∧ v.getLsbD 2 = decide (c ≠ .disable) ∧
      v.getLsbD 4 = decide (c = .stop) ∧ v.getLsbD 7 = !decide (c = .enable ∨ c = .disable) ∧
      (c = .receiveAck → ctrlEa v = true) ∧ (c = .receiveNack → ctrlEa v = false) := by
  obtain ⟨ea, rfl | rfl | rfl | rfl | rfl⟩ := ctrlValue_shape hd
  case inr.inr.inr.inr => cases ea <;> cases p <;> cases hc <;> decide
  case inr.inr.inl => cases ea <;> cases p <;> cases hc <;> decide
  all_goals cases ea <;> cases hc <;> decide

/-- Settles O20: the bits a command writes are those of the value that selected it. -/
theorem controlWriteSetsItsBits : Obligations.ControlWriteSetsItsBits := by
  intro s t v h
  obtain ⟨hd, c, hc, hp⟩ := execWrCtrl_next_iff.mp h
  obtain ⟨-, -, hr, rfl⟩ := perform_next_iff.mp hp
  obtain ⟨h5, h2, h4, h7, hack, hnack⟩ := selectCommand_bits hd hc
  obtain ⟨hea, hsta, hen, hsto, hint⟩ := commandEffect_bits hr hack hnack
  exact ⟨hea, hsta.trans h5.symm, hen.trans h2.symm, by rw [hsto, h4], by rw [hint, h7, Bool.not_not]⟩

/-- An idle block with nothing pending holds what STOP writes to INT, STA and EN (R41 items 1 and 5, R26). -/
theorem idle_fields (hb : BlockInv s) (hst : StaInv s) (hp : s.phase = .idle) (hf : s.inFlight = false) :
    s.int = false ∧ s.sta = false ∧ s.en = true := by
  have hint : s.int = false := int_of_idle hb hp
  obtain ⟨hen, -⟩ := hb
  refine ⟨hint, Bool.eq_false_iff.mpr fun h => ?_, hen.mpr (by simp [hp])⟩
  rw [hst hp h] at hf
  cases hf

/-- Settles O24: in Idle all that STOP writes but STO and EA is held already. -/
theorem stopInIdleChangesOnlyStoAndEa : Obligations.StopInIdleChangesOnlyStoAndEa := by
  intro s ea a r hm hi hq hp hb hst
  obtain ⟨hint, hsta, hen⟩ := idle_fields hb hst hp (inFlight_eq_false_iff.mpr ⟨hi, hq⟩)
  have stop : ∀ ea, exec (.stop ea) s = .next { s with sto := true, ea := ea } := by
    intro ea
    rw [(stopReleasesTheBus s ea hm hi hq).1 (by simp [hp])]
    simp [hint, hsta, hen, hp]
  have stopStep : ∀ ea, State.engineStep (.complete a r) { s with sto := true, ea := ea } =
      some { s with sto := false, ea := ea } := by
    intro ea
    simp [State.engineStep, State.stopReady, stopDone_eq, hq]
  refine ⟨stop ea, ?_, stopStep ea, fun he hs => ?_, fun he hs => ?_, fun hsrc => ⟨?_, ?_⟩⟩
  · obtain ⟨-, -, -, hvalue, -⟩ := ctrlValue_eq_shape ea
    rw [hvalue, exec_wrCtrl_stop, stop]
  · rw [stop, ← he, ← hs]
  · rw [stopStep, ← he, ← hs]
  · have he := hsrc.2 (.inr hp)
    rw [show (0x94 : Byte) = 0x94 ||| eaBit false by decide, exec_wrCtrl_stop, stop, ← he]
  · have he := hsrc.2 (.inr hp)
    simpa only [← he] using stopStep false

end Sys2Proof.Machine

end

/-! ### EA in Off and Idle with the source's HOST (R77, R107) -/

section

namespace Sys2Proof.Machine

variable {s t : State}

/-! #### The procedures' operations are the source's -/

/-- A write of another register than CTRL is free (R77). -/
theorem ofSource_regWrite {r : Reg} (hr : r ≠ .ctrl) (v : Byte) : (regWrite r v).ofSource = true := by
  cases r with
  | ctrl => exact absurd rfl hr
  | _ => revert v; decide

/-- The operations of the list write CTRL as the source's primitives do. -/
abbrev OpsOfSource (ops : List HostOp) : Prop := ops.all HostOp.ofSource = true

theorem opsOfSource_append {l m : List HostOp} (hl : OpsOfSource l) (hm : OpsOfSource m) : OpsOfSource (l ++ m) := by
  rw [OpsOfSource, List.all_append, hl, hm, Bool.and_self]

theorem opsOfSource_flatMap {f : Nat → List HostOp} (hf : ∀ i, OpsOfSource (f i)) (n : Nat) :
    OpsOfSource ((List.range n).flatMap f) := by
  simp only [OpsOfSource, List.all_flatMap, List.all_eq_true]
  exact fun i _ => List.all_eq_true.mp (hf i)

theorem startPhaseOps_ofSource (p : HostParams) (code : Byte) :
    OpsOfSource (firstPhaseOps p (startOps p) code) := rfl

theorem transmitOps_ofSource (p : HostParams) (b code : Byte) : OpsOfSource (phaseOps (transmitOps p b) code) := by
  have hb : (regWrite .data b).ofSource = true := ofSource_regWrite (by decide) b
  rw [OpsOfSource, phaseOps, transmitOps, List.cons_append, List.all_cons, hb]
  rfl

theorem transmitMemOps_ofSource (p : HostParams) (a : Nat) (code : Byte) :
    OpsOfSource (phaseOps (transmitMemOps p a) code) := rfl

theorem receiveAckOps_ofSource (p : HostParams) (a : Nat) (code : Byte) :
    OpsOfSource (phaseOps (receiveAckOps p a) code) := rfl

theorem receiveNackOps_ofSource (p : HostParams) (a : Nat) (code : Byte) :
    OpsOfSource (phaseOps (receiveNackOps p a) code) := rfl

theorem receiveOps_ofSource (p : HostParams) (base n : Nat) : OpsOfSource (receiveOps p base n) := by
  refine opsOfSource_flatMap (fun i => ?_) n
  split
  · exact receiveNackOps_ofSource _ _ _
  · exact receiveAckOps_ofSource _ _ _

/-- Every write of CTRL in the ten operations is one of the five of R77. -/
theorem expand_ofSource (p : HostParams) (c : Call) : OpsOfSource (expand p c) := by
  have start := startPhaseOps_ofSource p
  have send := transmitOps_ofSource p
  have success : OpsOfSource successOps := rfl
  have preamble : ∀ a r, OpsOfSource (registerPreambleOps p a r) := fun a r =>
    opsOfSource_append (opsOfSource_append (start _) (send _ _)) (send _ _)
  have turnaround : ∀ a, OpsOfSource (turnaroundOps p a) := fun a => opsOfSource_append (start _) (send _ _)
  have buffer : ∀ base n, OpsOfSource (bufferOps p base n) := fun base n =>
    opsOfSource_flatMap (fun i => transmitMemOps_ofSource p _ _) n
  have receives := receiveOps_ofSource p
  have last : ∀ a, OpsOfSource (lastReceiveOps p a) := fun a => receiveNackOps_ofSource p a _
  cases c with
  | init =>
    have config : ∀ {r : Reg}, r ≠ .ctrl → ∀ v, OpsOfSource [regWrite r v] := fun hr v => by
      rw [OpsOfSource, List.all_cons, ofSource_regWrite hr v]
      rfl
    exact opsOfSource_append (opsOfSource_append
      (opsOfSource_append (config (r := .status) (by decide) _) (config (r := .baud) (by decide) _)) rfl) rfl
  | probe a => exact opsOfSource_append (opsOfSource_append (start _) (send _ _)) success
  | write a d =>
    exact opsOfSource_append (opsOfSource_append (opsOfSource_append (start _) (send _ _)) (send _ _)) success
  | writeReg a r d => exact opsOfSource_append (opsOfSource_append (preamble a r) (send _ _)) success
  | writeMulti a b n =>
    exact opsOfSource_append (opsOfSource_append (opsOfSource_append (start _) (send _ _)) (buffer _ _)) success
  | writeMultiReg a r b n => exact opsOfSource_append (opsOfSource_append (preamble a r) (buffer _ _)) success
  | read a out =>
    exact opsOfSource_append (opsOfSource_append (opsOfSource_append (start _) (send _ _)) (last _)) success
  | readReg a r out =>
    exact opsOfSource_append (opsOfSource_append (opsOfSource_append (preamble a r) (turnaround a)) (last _)) success
  | readMulti a out n =>
    exact opsOfSource_append (opsOfSource_append (opsOfSource_append (start _) (send _ _)) (receives _ _)) success
  | readMultiReg a r out n =>
    exact opsOfSource_append (opsOfSource_append (opsOfSource_append (preamble a r) (turnaround a)) (receives _ _))
      success

theorem dropOperation_ofSource {ops : List HostOp} (h : OpsOfSource ops) : OpsOfSource (dropOperation ops) := by
  rw [OpsOfSource, List.all_eq_true] at h ⊢
  unfold dropOperation
  split
  · exact fun o ho => h o ((List.dropWhile_sublist _).subset (List.mem_of_mem_tail ho))
  · exact h

theorem abortOps_ofSource {ops : List HostOp} (stop : Bool) (h : OpsOfSource ops) :
    OpsOfSource (abortOps stop ops) :=
  opsOfSource_append (by cases stop <;> decide) (dropOperation_ofSource h)

theorem leftToDo_ofSource {rest ops : List HostOp} (h : LeftToDo rest ops) (hr : OpsOfSource rest) :
    OpsOfSource ops := by
  obtain rfl | ⟨n, rfl⟩ | ⟨stop, rfl⟩ | ⟨p, c, rfl⟩ := h
  · exact hr
  · exact opsOfSource_append (l := [.poll n]) rfl hr
  · exact abortOps_ofSource stop hr
  · exact opsOfSource_append (expand_ofSource p c) hr

/-! #### EA -/

/-- EA is 0 in Off and Idle. -/
abbrev EaClear (s : State) : Prop := s.phase = .off ∨ s.phase = .idle → s.ea = false

/-- The commands that can end in Off or Idle. -/
abbrev EndsIdle (c : Command) : Prop := c ∈ [Command.enable, .disable, .start, .stop]

/-- Any other command stays in its phase, which is neither Off nor Idle (R165). -/
theorem commandEffect_of_not_endsIdle {c : Command} {ea : Bool} (hc : ¬ EndsIdle c) (hr : CommandReady c s) :
    (commandEffect c ea s).phase ≠ .off ∧ (commandEffect c ea s).phase ≠ .idle := by
  have ha : ∀ p, admitted c p = true → ¬ EndsIdle c → p ≠ .off ∧ p ≠ .idle := by
    intro p
    cases c <;> cases p <;> decide
  have hp : (commandEffect c ea s).phase = s.phase := by
    cases c with
    | enable | disable | start | stop => exact absurd (by decide) hc
    | _ => rfl
  rw [hp]
  exact ha _ hr.admitted hc

theorem eaClear_exec {i : Instr} (hs : EaClear s) (h : exec i s = .next t)
    (hi : ∀ c ea, Performs i s.phase c ea → EndsIdle c → ea = false) : EaClear t := by
  obtain hk | ⟨c, ea, hc, -, hr, rfl⟩ := exec_block_cases h
  · simpa only [EaClear, hk.phase, hk.ea] using hs
  · by_cases he : EndsIdle c
    · have hack : c ≠ .receiveAck ∧ c ≠ .receiveNack := by
        constructor <;> rintro rfl <;> simp [EndsIdle] at he
      intro _
      rw [(commandEffect_bits hr (absurd · hack.1) (absurd · hack.2)).1]
      exact hi c ea hc he
    · obtain ⟨hoff, hidle⟩ := commandEffect_of_not_endsIdle (ea := ea) he hr
      exact fun hp => absurd hp (not_or.mpr ⟨hoff, hidle⟩)

/-- A CTRL value of the source that selects a command which can end in Off or Idle has EA 0: 0xC4, the one
value with EA 1, is a continue form (R76, R77). -/
theorem ctrlEa_ofSource {v : Byte} {p : Phase} {c : Command} (hv : (regWrite .ctrl v).ofSource = true)
    (hs : selectCommand v p = some c) (hc : EndsIdle c) : ctrlEa v = false := by
  have hv' : v = 0xC4 ∨ ctrlEa v = false := by
    clear hs
    revert v
    decide
  refine hv'.resolve_left ?_
  rintro rfl
  cases p <;> cases hs <;> revert hc <;> decide

/-- An access word of the source performs a command that can end in Off or Idle only with EA 0. -/
theorem performs_ofSource {w : AccessWord} {p : Phase} {c : Command} {ea : Bool}
    (hw : HostOp.ofSource (.access w) = true) (h : Performs (decodeAccess w) p c ea) (hc : EndsIdle c) :
    ea = false := by
  obtain hi | ⟨v, hi, -, hs, rfl⟩ := h
  · unfold decodeAccess at hi
    split at hi <;> cases c <;> cases hi
  · have h10 : w.getLsbD 10 = true := by rw [← isWrite_decodeAccess, hi, Instr.isWrite]
    have hword := encode_decodeAccess w
    rw [hi, h10, if_pos rfl] at hword
    rw [← hword] at hw
    exact ctrlEa_ofSource hw hs hc

/-- A read and a write of DATA perform no command. -/
theorem not_performs {i : Instr} {p : Phase} {c : Command} {ea : Bool}
    (hi : i ∈ [Instr.rdCtrl, .rdStatus, .rdData] ∨ ∃ b, i = .wrData b) : ¬ Performs i p c ea := by
  rintro (rfl | ⟨v, rfl, -⟩)
  · cases c <;> simp [commandInstr] at hi
  · simp at hi

/-- An access of the source's HOST keeps EA clear. -/
theorem eaClear_op {op : HostOp} {i : Instr} (hop : op.ofSource = true) (hi : op.instr s = some i)
    (hs : EaClear s) (h : exec i s = .next t) : EaClear t := by
  have plain : (i ∈ [Instr.rdCtrl, .rdStatus, .rdData] ∨ ∃ b, i = .wrData b) → EaClear t := fun hi =>
    eaClear_exec hs h fun _ _ hp => absurd hp (not_performs hi)
  cases op with
  | access w =>
    cases hi
    rw [State.fetch, commandRowAndPlainAccessAgree] at h
    exact eaClear_exec hs h fun _ _ => performs_ofSource hop
  | poll _ | check _ _ | storeData _ =>
    cases hi
    exact plain (.inl (by simp))
  | loadData a =>
    obtain ⟨b, -, rfl⟩ := Option.map_eq_some_iff.mp hi
    exact plain (.inr ⟨b, rfl⟩)
  | call _ _ | ret _ => cases hi

/-- A HOST step keeps the source's operations, and EA clear. -/
theorem sourceInv_hostStep (hs : SourceInv s) (h : hostStep s = .next t) : SourceInv t := by
  obtain rfl | ⟨op, rest, ho, hleft, hstep⟩ := hostStep_next_cases h
  · exact hs
  · obtain ⟨hops, hea⟩ := hs
    rw [ho, List.all_cons, Bool.and_eq_true] at hops
    refine ⟨leftToDo_ofSource hleft hops.2, ?_⟩
    obtain ⟨d, rfl⟩ | ⟨i, v, hi, hv, d, rfl⟩ := hstep
    · exact hea
    · have hc : EaClear v := eaClear_op hops.1 hi hea hv
      cases i.isWrite <;> exact hc

/-- ENGINE's steps keep EA clear: no completion leads to Off or Idle, and the stop step keeps the phase. -/
theorem sourceInv_engineStep {m : BusMove} {u : State} (hs : SourceInv s) (h : s.engineStep m = some u) :
    SourceInv u := by
  obtain ⟨a, r, -, ⟨-, rfl⟩ | ⟨-, c, o, -, ho, rfl⟩⟩ := engineStep_cases h
  · rw [stopDone_eq]
    exact hs
  · obtain ⟨hoff, hidle⟩ := outcome_phase_ne ho
    exact ⟨hs.1, fun hp => absurd hp (not_or.mpr ⟨hoff, hidle⟩)⟩

/-- Settles O42: the only value of the source with EA 1 continues a receive, and STOP clears EA on the way
back to Idle. -/
theorem everyStepKeepsEaClearForTheSourcesHost : Obligations.EveryStepKeepsEaClearForTheSourcesHost := by
  intro s t hs h
  obtain ⟨-, ⟨-, u, hu, rfl⟩ | ⟨s', u, hs', hu, rfl⟩⟩ := step_cases h
  · exact sourceInv_engineStep (s := s.takeBusMove) (u := u) hs hu
  · refine sourceInv_hostStep (s := s') (t := u) ?_ hu
    obtain ⟨rfl, -⟩ | ⟨rfl, -⟩ := hs' <;> exact hs

end Sys2Proof.Machine

end

/-! ### BAUD and PS influence nothing (R32, R36) -/

section

namespace Sys2Proof.Machine

variable {s t : State}

/-- `s` with other clock fields, and another byte read last by the HOST. -/
def State.clocked (b : Byte) (p : BitVec 2) (v : Option Byte) (s : State) : State :=
  { s with baud := b, ps := p, driver := { s.driver with value := v } }

variable (b : Byte) (p : BitVec 2) (v : Option Byte)

/-! #### Answers that agree -/

theorem agree_mapNext {f g : State → State} {o q : Answered}
    (hfg : ∀ s t, SameButClock s t → SameButClock (f s) (g t)) (h : AgreeButClock o q) :
    AgreeButClock (mapNext f o) (mapNext g q) := by
  cases o with
  | next s =>
    cases q with
    | next t => exact hfg s t h
    | fault _ | refused _ => exact h
  | fault _ | refused _ => cases q <;> exact h

theorem agree_unlessMarked {k l : Answered} (h : AgreeButClock k l) :
    AgreeButClock (unlessMarked s k) (unlessMarked (s.clocked b p v) l) := by
  change AgreeButClock _ (unlessMarked s l)
  unfold unlessMarked
  cases s.fault with
  | some r => rfl
  | none =>
    cases s.refused with
    | some r => rfl
    | none => exact h

theorem agree_hostWrite {k l : Answered} (h : AgreeButClock k l) :
    AgreeButClock (hostWrite s k) (hostWrite (s.clocked b p v) l) := by
  refine agree_unlessMarked b p v ?_
  change AgreeButClock _ (if s.inFlight then _ else _)
  split
  · rfl
  · exact h

theorem agree_configWrite {k l : Answered} (h : AgreeButClock k l) :
    AgreeButClock (configWrite s k) (configWrite (s.clocked b p v) l) := by
  refine agree_hostWrite b p v ?_
  change AgreeButClock _ (if s.busy then _ else _)
  split
  · rfl
  · exact h

theorem agree_command (c : Command) {k l : Answered} (h : AgreeButClock k l) :
    AgreeButClock (command c s k) (command c (s.clocked b p v) l) := by
  refine agree_hostWrite b p v ?_
  change AgreeButClock _ (if admitted c s.phase then _ else _)
  split
  · exact h
  · rfl

theorem agree_withData {k l : Byte → Answered} (h : ∀ d, AgreeButClock (k d) (l d)) :
    AgreeButClock (withData s k) (withData (s.clocked b p v) l) := by
  change AgreeButClock _ (withData s l)
  unfold withData
  cases s.data with
  | some d => exact h d
  | none => rfl

/-! #### The agents' steps agree -/

theorem agree_perform (c : Command) (ea : Bool) :
    AgreeButClock (perform c ea s) (perform c ea (s.clocked b p v)) := by
  cases c with
  | enable =>
    refine agree_command b p v _ ?_
    change SameButClock _ (if s.phase = .off then _ else _)
    split <;> rfl
  | disable =>
    refine agree_command b p v _ ?_
    change AgreeButClock _ (if disableAdmitted s then _ else _)
    split <;> rfl
  | start =>
    refine agree_command b p v _ ?_
    change SameButClock (if s.sto then _ else _) (if s.sto then _ else _)
    split <;> rfl
  | stop =>
    refine agree_command b p v _ ?_
    change SameButClock _ _
    rw [beginStop_eq, beginStop_eq]
    rfl
  | transmitAddr | transmitData => exact agree_command b p v _ (agree_withData b p v fun _ => rfl)
  | repStart | receiveAck | receiveNack => exact agree_command b p v _ rfl

theorem agree_exec (i : Instr) : AgreeButClock (exec i s) (exec i (s.clocked b p v)) := by
  cases i with
  | rdBaud | rdStatus | rdCtrl => exact agree_unlessMarked b p v rfl
  | rdData =>
    refine agree_unlessMarked b p v ?_
    change AgreeButClock _ (match s.dataByte with | some d => _ | none => _)
    cases s.dataByte <;> rfl
  | wrBaud x | wrStatus x => exact agree_configWrite b p v rfl
  | wrData x => exact agree_hostWrite b p v rfl
  | wrCtrl x =>
    refine agree_hostWrite b p v ?_
    cases ctrlDefect x with
    | some d => rfl
    | none =>
      change AgreeButClock _ (match selectCommand x s.phase with | some c => _ | none => _)
      cases selectCommand x s.phase with
      | some c => exact agree_perform b p v c _
      | none => rfl
  | enable ea => exact agree_perform b p v .enable ea
  | disable ea => exact agree_perform b p v .disable ea
  | start ea => exact agree_perform b p v .start ea
  | repStart ea => exact agree_perform b p v .repStart ea
  | stop ea => exact agree_perform b p v .stop ea
  | transmitAddr ea => exact agree_perform b p v .transmitAddr ea
  | transmitData ea => exact agree_perform b p v .transmitData ea
  | receiveAck => exact agree_perform b p v .receiveAck true
  | receiveNack => exact agree_perform b p v .receiveNack false

/-- An access followed by the HOST's remaining operations. -/
theorem agree_access (i : Instr) (rest : List HostOp) :
    AgreeButClock (mapNext (State.setOps rest) (hostAccess i s))
      (mapNext (State.setOps rest) (hostAccess i (s.clocked b p v))) := by
  rw [hostAccess_eq_mapNext, hostAccess_eq_mapNext, mapNext_mapNext, mapNext_mapNext]
  refine agree_mapNext (fun s t h => ?_) (agree_exec b p v i)
  rw [h]
  cases i.isWrite <;> rfl

/-- The code of a STATUS byte, without PS (R105, R130). -/
theorem statusCode_statusByte (s : State) : statusCode s.statusByte = s.statusField ++ 0#3 := by
  unfold statusCode State.statusByte
  generalize s.statusField = f, s.ps = q
  revert f q
  decide

theorem mapNext_unlessMarked (f : State → State) (s : State) (k : Answered) :
    mapNext f (unlessMarked s k) = unlessMarked s (mapNext f k) := by
  unfold unlessMarked
  cases s.fault <;> cases s.refused <;> rfl

theorem agree_hostOp (op : HostOp) (rest : List HostOp) :
    AgreeButClock (hostOp op rest s) (hostOp op rest (s.clocked b p v)) := by
  unfold hostOp
  split
  · next w => exact agree_access b p v _ rest
  · rfl
  · simp only [hostAccess, exec, execRdCtrl, mapNext_unlessMarked]
    exact agree_unlessMarked b p v rfl
  · next expected stop =>
    simp only [hostAccess, exec, execRdStatus, mapNext_unlessMarked]
    refine agree_unlessMarked b p v ?_
    have hops : afterCheck expected stop (s.clocked b p v).statusByte rest =
        afterCheck expected stop s.statusByte rest := by
      simp only [afterCheck, checkStatus, statusCode_statusByte]
      rfl
    change SameButClock ((s.readBack s.statusByte).setOps (afterCheck expected stop s.statusByte rest))
      (((s.clocked b p v).readBack _).setOps (afterCheck expected stop (s.clocked b p v).statusByte rest))
    rw [hops]
    rfl
  · next a =>
    change AgreeButClock _ (match memRead s.driver.mem a with | some x => _ | none => _)
    cases memRead s.driver.mem a with
    | some x => exact agree_access b p v _ rest
    | none => rfl
  · next a =>
    simp only [hostAccess, exec, execRdData, mapNext_unlessMarked]
    refine agree_unlessMarked b p v ?_
    change AgreeButClock _ (mapNext _ (match s.dataByte with | some d => _ | none => _))
    cases s.dataByte <;> rfl
  · next q c =>
    change AgreeButClock _ (if callOk s.driver.mem c && !inProgress rest then _ else _)
    split <;> rfl
  · rfl

theorem agree_hostStep : AgreeButClock (hostStep s) (hostStep (s.clocked b p v)) := by
  unfold hostStep
  change AgreeButClock _ (match s.driver.ops with | [] => _ | op :: rest => _)
  cases s.driver.ops with
  | nil => rfl
  | cons op rest => exact agree_hostOp b p v op rest

theorem engineStep_clocked (m : BusMove) :
    State.engineStep m (s.clocked b p v) = (s.engineStep m).map (State.clocked b p v) := by
  cases m with
  | wait => rfl
  | complete a r =>
    change (if s.stopReady then some (State.stopDone (s.clocked b p v)) else _) =
      (if s.stopReady then some s.stopDone else _).map (State.clocked b p v)
    split
    · rw [stopDone_eq, stopDone_eq]
      rfl
    · change (match s.inflight with | none => none | some c => _) = _
      cases s.inflight with
      | none => rfl
      | some c =>
        change (s.outcome c a r).map _ = ((s.outcome c a r).map _).map _
        cases s.outcome c a r <;> rfl

theorem agree_nextTick (s t : State) (h : SameButClock s t) : SameButClock s.nextTick t.nextTick := by
  rw [h]
  rfl

/-- Settles O49: each agent's step reads the clock fields of neither state. -/
theorem clockFieldsInfluenceNothing : Obligations.ClockFieldsInfluenceNothing := by
  intro s t h
  have ht : t = s.clocked t.baud t.ps t.driver.value := h
  rw [ht]
  generalize t.baud = b, t.ps = p, t.driver.value = v
  refine agree_unlessMarked b p v ?_
  change AgreeButClock _ (if s.engineReady then
    (match State.engineStep s.busMove (s.takeBusMove.clocked b p v) with | some t => _ | none => _) else _)
  rw [engineStep_clocked]
  split
  · cases State.engineStep s.busMove s.takeBusMove with
    | some u => rfl
    | none => exact agree_mapNext agree_nextTick (agree_hostStep b p v)
  · exact agree_mapNext agree_nextTick (agree_hostStep b p v)

end Sys2Proof.Machine

end

/-! ### The HOST's operations (R52, R226 to R240) -/

section

namespace Sys2Proof.Machine

variable {s t : State}

/-- With no stop pending and nothing in flight ENGINE has no step (R182). -/
theorem engineReady_of_none (hs : s.sto = false) (hi : s.inflight = none) : s.engineReady = false := by
  simp [State.engineReady, State.stopReady, State.completionReady, hs, hi]

theorem not_engineMoves_of_none (hs : s.sto = false) (hi : s.inflight = none) : ¬ EngineMoves s := by
  simp [EngineMoves, engineReady_of_none hs hi]

/-- Where ENGINE has no step the step is the HOST's. -/
theorem step_of_engine_none (hm : Unmarked s) (hs : s.sto = false) (hi : s.inflight = none) :
    step s = mapNext State.nextTick (hostStep s) := by
  rw [step_of_not_engineMoves hm (not_engineMoves_of_none hs hi), engineReady_of_none hs hi]
  rfl

theorem hostStep_of_ops {op : HostOp} {rest : List HostOp} (ho : s.driver.ops = op :: rest) :
    hostStep s = hostOp op rest s := by
  simp only [hostStep, ho]

/-- A check reads STATUS and compares it (R133). -/
theorem step_check {code : Byte} {stop : Bool} {rest : List HostOp} (hm : Unmarked s) (hs : s.sto = false)
    (hi : s.inflight = none) (ho : s.driver.ops = .check code stop :: rest) :
    step s = .next ((s.readBack s.statusByte).setOps (afterCheck code stop s.statusByte rest)).nextTick := by
  have hread : hostAccess .rdStatus s = .next (s.readBack s.statusByte) := unlessMarked_of_unmarked hm.1 hm.2 _
  rw [step_of_engine_none hm hs hi, hostStep_of_ops ho, hostOp, hread]
  rfl

/-- What a check leaves to do inside an operation (R227, R240). -/
theorem afterCheck_append_ret {code v : Byte} {stop : Bool} {body : List HostOp} (later : List HostOp) (r : Result)
    (hb : inProgress body = false) :
    afterCheck code stop v (body ++ .ret r :: later) =
      if v &&& 0xF8 = code then body ++ .ret r :: later
      else if stop = true then .access 0x794 :: .ret .error :: later
      else .ret .error :: later := by
  have habort : abortOps stop (body ++ .ret r :: later) =
      (if stop = true then stopOps else []) ++ .ret .error :: later := by
    rw [abortOps, dropOperation_append_ret later r hb]
  rw [afterCheck, checkStatus, statusCode]
  split_ifs
  · rfl
  · rw [habort]
    split_ifs
    rfl
  · rw [habort]
    split_ifs
    rfl

/-- Settles O55: the check compares the STATUS byte, and on a mismatch only the abort is left. -/
theorem failedCheckEndsTheOperation : Obligations.FailedCheckEndsTheOperation := by
  intro s code stop body later r hm hi hq hs ho hb
  exact ⟨_, step_check hm hs hi ho, afterCheck_append_ret later r hb⟩

/-- The preconditions of R228 as `callOk` decides them. -/
theorem bytesOk_iff {m : List Host.Cell} {b : Buffer} {n : Nat} :
    bytesOk m b n = true ↔ n ≤ b.size ∧ ∀ i, i < n → memRead m (b.base + i) ≠ none := by
  simp [bytesOk, Option.isSome_iff_ne_none]

/-- Settles O53: the step is `hostOp`'s call, whose guard is `callOk` and that no operation is in progress. -/
theorem callsAreCheckedBeforeTheirFirstAccess : Obligations.CallsAreCheckedBeforeTheirFirstAccess := by
  intro s p c rest hm he ho
  have hstep : step s =
      if callOk s.driver.mem c && !inProgress rest then
        .next { s with
          driver := { s.driver with ops := expand p c ++ rest }
          bus := if s.engineReady = true then s.bus.tail else s.bus
          tick := s.tick + 1 }
      else .refused .hostPrecondition := by
    rw [step_of_not_engineMoves hm he]
    cases s.engineReady
    · rw [if_neg (by simp), hostStep_of_ops ho, hostOp]
      split <;> rfl
    · rw [if_pos rfl, hostStep_of_ops (s := s.takeBusMove) ho, hostOp]
      change mapNext _ (if callOk s.driver.mem c && !inProgress rest then _ else _) = _
      split <;> rfl
  constructor
  · intro hin
    rw [hstep, hin, Bool.not_true, Bool.and_false, if_neg (by simp)]
  · intro hin meets
    have hmeets : callOk s.driver.mem c = true ↔ meets := by
      cases c <;> simp [callOk, addressOk, outOk, bytesOk_iff, meets, and_assoc]
    rw [hin, Bool.not_false, Bool.and_true] at hstep
    exact ⟨fun h => by rw [hstep, if_pos (hmeets.mpr h)], fun h => by rw [hstep, if_neg (mt hmeets.mp h)]⟩

/-- Settles O32: the DATA read returns DATA's byte, nothing being in flight, and the store writes one address. -/
theorem storingAReceivedByteChangesOneByte : Obligations.StoringAReceivedByteChangesOneByte := by
  intro s a b rest hm ho hi hq hd he
  have hstore : ∀ s' : State, s'.driver = s.driver → Unmarked s' → s'.dataByte = some b →
      hostStep s' = .next (((s'.readBack b).storeByte a b).setOps rest) := by
    intro s' hdr hm' hb
    have hread : hostAccess .rdData s' = .next (s'.readBack b) :=
      execRdData_next_iff.mpr ⟨hm', b, hb, rfl⟩
    rw [hostStep_of_ops (hdr ▸ ho), hostOp, hread]
    rfl
  have hb : s.dataByte = some b := by
    rw [State.dataByte, inFlight_eq_false_iff.mpr ⟨hi, hq⟩, if_neg (by simp), hd]
  have hstep : ∃ s' : State, s'.driver = s.driver ∧
      step s = .next (((s'.readBack b).storeByte a b).setOps rest).nextTick := by
    rw [step_of_not_engineMoves hm he]
    split
    · exact ⟨s.takeBusMove, rfl, by rw [hstore s.takeBusMove rfl hm hb]; rfl⟩
    · exact ⟨s, rfl, by rw [hstore s rfl hm hb]; rfl⟩
  obtain ⟨s', hs', hstep⟩ := hstep
  refine ⟨_, hstep, rfl, ?_, fun c hc => ?_⟩
  · exact memRead_memWrite_same _ a b
  · rw [← hs']
    exact memRead_memWrite_other _ b hc

/-- A multi-byte read's receives: all but the last byte with ACK, the last with NACK (R237). -/
theorem receiveOps_succ (p : HostParams) (base n : Nat) :
    receiveOps p base (n + 1) =
      (List.range n).flatMap (fun i => phaseOps (receiveAckOps p (base + i)) 0x50) ++
        lastReceiveOps p (base + n) := by
  rw [receiveOps, List.range_succ, List.flatMap_append, List.flatMap_singleton, if_pos rfl]
  congr 1
  refine List.flatMap_congr fun i hi => if_neg ?_
  have := List.mem_range.mp hi
  omega

/-- Settles O54: each receive has one trigger and one store, and the operations come in index order. -/
theorem multiByteReadAcknowledgesAllButTheLast : Obligations.MultiByteReadAcknowledgesAllButTheLast := by
  intro p base n
  rw [receiveOps_succ]
  constructor
  · rw [List.filter_append, List.filter_flatMap]
    have early : ∀ i, (phaseOps (receiveAckOps p (base + i)) 0x50).filter
        (fun o => o == .access 0x7C4 || o == .access 0x784) = [.access 0x7C4] := fun _ => rfl
    have last : (lastReceiveOps p (base + n)).filter
        (fun o => o == .access 0x7C4 || o == .access 0x784) = [.access 0x784] := rfl
    simp only [last, early]
    congr 1
    exact (List.flatMap_pure_eq_map _ _).trans (by simp)
  · rw [List.filterMap_append, List.filterMap_flatMap, List.range_succ, List.map_append]
    congr 1
    exact List.flatMap_pure_eq_map _ _
end Sys2Proof.Machine

end

/-! ### The completion poll (R184, R225, R296) -/

section

namespace Sys2Proof.Machine

variable {s t : State} {rest : List HostOp}

theorem reachedIn_one (h : step s = .next t) : ReachedIn 1 s t :=
  reachedIn_succ_iff.mpr ⟨t, h, rfl⟩

theorem engineStep_stop {a : Answer} {r : Byte} (hs : s.sto = true) :
    s.engineStep (.complete a r) = some s.stopDone :=
  if_pos hs

theorem engineStep_completion {c : Cmd} {a : Answer} {r : Byte} {o : Completion} (hs : s.sto = false)
    (hc : s.inflight = some c) (ho : s.outcome c a r = some o) :
    s.engineStep (.complete a r) = some (s.complete o) := by
  simp only [State.engineStep, State.stopReady, hs, Bool.false_eq_true, if_false, hc, ho, Option.map_some]

/-- Where BUS's next choice makes an ENGINE step, the step is ENGINE's. -/
theorem step_of_engineStep {u : State} (hm : Unmarked s) (hr : s.engineReady = true)
    (hu : s.takeBusMove.engineStep s.busMove = some u) : step s = .next u.nextEpoch.nextTick := by
  obtain ⟨v, hv, hstep⟩ := step_of_engineMoves hm ⟨hr, by rw [hu]; rfl⟩
  cases hu.symm.trans hv
  exact hstep

/-! #### A poll after STOP -/

/-- The HOST polls without bound, with INT 0 and nothing that could set it. -/
structure PollsForNothing (rest : List HostOp) (trace : List BusEvent) (s : State) : Prop where
  unmarked : Unmarked s
  int : s.int = false
  inflight : s.inflight = none
  queued : s.queued = false
  ops : s.driver.ops = .poll none :: rest
  trace : s.trace = trace

/-- A step of such a HOST's machine is one more read of the poll, or ENGINE's stop step. -/
theorem PollsForNothing.step {trace : List BusEvent} (h : PollsForNothing rest trace s) :
    ∃ t, step s = .next t ∧ PollsForNothing rest trace t := by
  obtain ⟨hm, hint, hi, hq, ho, htr⟩ := h
  by_cases he : EngineMoves s
  · obtain ⟨u, hu, hstep⟩ := step_of_engineMoves hm he
    refine ⟨_, hstep, ?_⟩
    obtain ⟨_, _, -, ⟨-, rfl⟩ | ⟨-, c, _, hc, -⟩⟩ := engineStep_cases hu
    · rw [stopDone_eq]
      exact ⟨hm, hint, by simpa [hq, State.takeBusMove] using hi, rfl, ho, htr⟩
    · exact absurd (hi.symm.trans hc) (by simp)
  · exact ⟨_, step_poll_waits hm hint ho he, hm, hint, hi, hq, ho, htr⟩

theorem PollsForNothing.run {trace : List BusEvent} (n : Nat) (h : PollsForNothing rest trace s) :
    ∃ t, ReachedIn n s t ∧ PollsForNothing rest trace t := by
  induction n generalizing s with
  | zero => exact ⟨s, rfl, h⟩
  | succ n ih =>
    obtain ⟨u, hu, hp⟩ := h.step
    obtain ⟨t, ht, hpt⟩ := ih hp
    exact ⟨t, reachedIn_succ_iff.mpr ⟨u, hu, ht⟩, hpt⟩

/-- Settles O57: no step of such a run sets INT or puts a command in flight, so the poll goes on. -/
theorem pollAfterStopNeverEnds : Obligations.PollAfterStopNeverEnds := by
  intro s t n rest hm hint hi hq ho
  obtain ⟨u, hu, hp⟩ := PollsForNothing.run (s := s) n ⟨hm, hint, hi, hq, ho, rfl⟩
  refine ⟨fun ht => ?_, u, hu⟩
  cases reachedIn_unique ht hu
  exact ⟨hp.ops, hp.int, hp.trace⟩

/-! #### A poll for a command that triggered -/

/-- The machine after the HOST has polled for a while without an ENGINE step. -/
def State.afterWaits (x : Option Byte) (b : List BusMove) (k : Nat) (s : State) : State :=
  { s with driver := { s.driver with value := x }, bus := b, tick := k }

theorem BusLive.of_reachedIn {n : Nat} (h : BusLive s) (hr : ReachedIn n s t) : BusLive t :=
  fun m u hu hs => h (n + m) u (reachedIn_trans hr hu) hs

/-- While a HOST polls with INT 0, ENGINE either moves or still has its step at every later point. -/
theorem poll_moves_or_ready (hm : Unmarked s) (hint : s.int = false) (ho : s.driver.ops = .poll none :: rest)
    (hr : s.engineReady = true) (m : Nat) :
    (∃ n u, ReachedIn n s u ∧ EngineMoves u) ∨ ∃ u, ReachedIn m s u ∧ u.engineReady = true := by
  induction m generalizing s with
  | zero => exact .inr ⟨s, rfl, hr⟩
  | succ m ih =>
    by_cases he : EngineMoves s
    · exact .inl ⟨0, s, rfl, he⟩
    · have hstep := step_poll_waits hm hint ho he
      obtain ⟨n, u, hu, hmv⟩ | ⟨u, hu, hru⟩ := ih (s := s.afterWaits (some s.ctrlByte)
        (if s.engineReady then s.bus.tail else s.bus) (s.tick + 1)) hm hint ho hr
      · exact .inl ⟨n + 1, u, reachedIn_succ_iff.mpr ⟨_, hstep, hu⟩, hmv⟩
      · exact .inr ⟨u, reachedIn_succ_iff.mpr ⟨_, hstep, hu⟩, hru⟩

/-- Under BusLive the poll comes to the ENGINE step that waits, with nothing of the block changed. -/
theorem poll_comes_to_engine (hm : Unmarked s) (hint : s.int = false) (ho : s.driver.ops = .poll none :: rest)
    (hr : s.engineReady = true) (hl : BusLive s) :
    ∃ n x b k, ReachedIn n s (s.afterWaits x b k) ∧ EngineMoves (s.afterWaits x b k) := by
  have moves : ∃ n u, ReachedIn n s u ∧ EngineMoves u := by
    by_contra hn
    obtain ⟨n, u, hu, he⟩ := hl 0 s rfl fun m => (poll_moves_or_ready hm hint ho hr m).resolve_left hn
    exact hn ⟨n, u, hu, he⟩
  obtain ⟨m, u, hu, he⟩ := moves
  obtain ⟨n, x, b, k, hx, hn⟩ := poll_reaches_engine hm hint ho hu he
  exact ⟨n, x, b, k, hn, hx⟩

/-- The completion, and the poll's last read after it: the five writes, and the HOST past the poll. -/
def PolledCompletion (rest : List HostOp) (o : Completion) (s t : State) : Prop :=
  t = { s with
    phase := o.phase, data := o.data, trace := s.trace ++ [o.event], int := true, inflight := none
    driver := { s.driver with ops := rest, value := t.driver.value }
    bus := t.bus, tick := t.tick, epoch := t.epoch }

/-- Where BUS completes the command now, the poll ends two steps later. -/
theorem poll_ends {c : Cmd} {a : Answer} {r : Byte} {o : Completion} (hm : Unmarked s) (hs : s.sto = false)
    (hc : s.inflight = some c) (ho : s.driver.ops = .poll none :: rest) (hr : s.engineReady = true)
    (hb : s.busMove = .complete a r) (hout : s.outcome c a r = some o) :
    ∃ t, ReachedIn 2 s t ∧ PolledCompletion rest o s t ∧ t.bus = s.bus.tail := by
  have hengine : s.takeBusMove.engineStep s.busMove = some (s.takeBusMove.complete o) := by
    rw [hb]
    exact engineStep_completion (s := s.takeBusMove) hs hc hout
  have hstep := step_of_engineStep hm hr hengine
  set u := (s.takeBusMove.complete o).nextEpoch.nextTick
  have hread : step u = .next ((u.readBack u.ctrlByte).setOps rest).nextTick := by
    rw [step_of_engine_none (s := u) hm hs rfl, hostStep_poll (s := u) hm ho]
    rfl
  exact ⟨_, reachedIn_succ_iff.mpr ⟨u, hstep, reachedIn_one hread⟩, rfl, rfl⟩

/-- Under BusLive the poll for a command in flight ends with a completion BUS chose on the run. -/
theorem poll_ends_of_busLive {c : Cmd} (hm : Unmarked s) (hint : s.int = false) (hs : s.sto = false)
    (hc : s.inflight = some c) (hf : FlightInv s) (ho : s.driver.ops = .poll none :: rest) (hl : BusLive s) :
    ∃ a r o, s.outcome c a r = some o ∧
      (∃ n x b k, ReachedIn n s (s.afterWaits x b k) ∧ (s.afterWaits x b k).engineReady = true ∧
        (s.afterWaits x b k).busMove = .complete a r) ∧
      ∃ n t, ReachedIn n s t ∧ PolledCompletion rest o s t := by
  have hr : s.engineReady = true := by
    rw [State.engineReady, hf (by simp [hc]), Bool.or_true]
  obtain ⟨n, x, b, k, hn, he⟩ := poll_comes_to_engine hm hint ho hr hl
  obtain ⟨u, hu, -⟩ := step_of_engineMoves (s := s.afterWaits x b k) hm he
  obtain ⟨a, r, hb, ⟨hsto, -⟩ | ⟨-, c', o, hc', hout, -⟩⟩ := engineStep_cases hu
  · exact absurd (hs.symm.trans hsto) (by simp)
  · cases hc.symm.trans hc'
    obtain ⟨t, ht, hdone, -⟩ := poll_ends (s := s.afterWaits x b k) hm hs hc ho he.1 hb hout
    exact ⟨a, r, o, hout, ⟨n, x, b, k, hn, he.1, hb⟩, n + 2, t, reachedIn_trans hn ht, hdone⟩

/-- Under BusLive the poll for a START queued behind a stop comes to that START in flight. -/
theorem poll_begins_queued (hm : Unmarked s) (hb : BlockInv s) (hf : FlightInv s) (hq : s.queued = true)
    (ho : s.driver.ops = .poll none :: rest) (hl : BusLive s) :
    ∃ n t, ReachedIn n s t ∧ Unmarked t ∧ BlockInv t ∧ FlightInv t ∧ t.inflight = some .start ∧
      t.driver.ops = .poll none :: rest := by
  obtain ⟨hsto, -, hint⟩ := blockInv_queued hb hq
  have hr : s.engineReady = true := by rw [State.engineReady, State.stopReady, hsto, Bool.true_or]
  obtain ⟨n, x, b, k, hn, he⟩ := poll_comes_to_engine hm hint ho hr hl
  obtain ⟨u, hu, hstep⟩ := step_of_engineMoves (s := s.afterWaits x b k) hm he
  obtain ⟨_, _, -, ⟨-, rfl⟩ | ⟨hs, -⟩⟩ := engineStep_cases hu
  · have hbt := everyStepKeepsTheBlockInvariants (s.afterWaits x b k) _ hb hstep
    have hft := everyStepKeepsFlightsCompletable (s.afterWaits x b k) _ hb hf hstep
    rw [stopDone_eq] at hstep hbt hft
    exact ⟨n + 1, _, reachedIn_trans hn (reachedIn_one hstep), hm, hbt, hft, if_pos hq, ho⟩
  · exact absurd (hsto.symm.trans hs) (by simp)

/-- Settles O56: a queued START comes to be in flight, and the poll for a command in flight ends. -/
theorem pollEndsUnderBusLive : Obligations.PollEndsUnderBusLive := by
  have inflight : ∀ (s : State) (rest : List HostOp) (c : Cmd), Unmarked s → BlockInv s → FlightInv s →
      s.inflight = some c → s.driver.ops = .poll none :: rest → BusLive s →
      ∃ n t, ReachedIn n s t ∧ t.driver.ops = rest ∧ t.int = true ∧ t.inFlight = false := by
    intro s rest c hm hb hf hc ho hl
    obtain ⟨hint, hs, hq⟩ := blockInv_inflight hb (by simp [hc])
    obtain ⟨-, -, o, -, -, n, t, ht, hdone⟩ := poll_ends_of_busLive hm hint hs hc hf ho hl
    refine ⟨n, t, ht, ?_⟩
    rw [hdone]
    exact ⟨rfl, rfl, inFlight_eq_false_iff.mpr ⟨rfl, hq⟩⟩
  intro s rest hm hb hf hfl ho hl
  cases hc : s.inflight with
  | some c => exact inflight s rest c hm hb hf hc ho hl
  | none =>
    have hq : s.queued = true := by simpa [State.inFlight, hc] using hfl
    obtain ⟨n, u, hu, hmu, hbu, hfu, hcu, hou⟩ := poll_begins_queued hm hb hf hq ho hl
    obtain ⟨m, t, ht, hend⟩ := inflight u rest .start hmu hbu hfu hcu hou (hl.of_reachedIn hu)
    exact ⟨n + m, t, reachedIn_trans hu ht, hend⟩

end Sys2Proof.Machine

end

/-! ### The STATUS and DATA bytes (R34, R104, R105) -/

section

namespace Sys2Proof.Machine

variable {s : State}

/-- The STATUS byte under the mask 0xF8 when the block is not busy (R34, R105). -/
theorem statusByte_code (hi : s.inflight = none) (hq : s.queued = false) (hs : s.sto = false) :
    s.statusByte &&& 0xF8 = phaseCode Config.idleCode s.phase := by
  have hcode : ∀ p, (phaseCode Config.idleCode p).extractLsb' 3 5 ++ 0#3 = phaseCode Config.idleCode p := by
    intro p
    cases p <;> decide
  have hb : s.busy = false := busy_eq_false_iff.mpr ⟨hi, hq, hs⟩
  calc s.statusByte &&& 0xF8 = s.statusField ++ 0#3 := statusCode_statusByte s
    _ = phaseCode Config.idleCode s.phase := by
      rw [State.statusField, hb, if_neg (by simp)]
      exact hcode s.phase

/-- Settles O52: a finite fact about the eight bits. -/
theorem addressByteIsAddressThenDirection : Obligations.AddressByteIsAddressThenDirection := by
  have bits : ∀ (a : SlaveAddress) (d : BitVec 1), slaByte a d = (a.setWidth 8 <<< 1 ||| d.setWidth 8) ∧
      slaAddress (slaByte a d) = a ∧ slaIsRead (slaByte a d) = d.getLsbD 0 := by
    decide
  intro a d
  obtain ⟨hbyte, haddress, hread⟩ := bits a d
  exact ⟨hbyte, haddress, hread, rfl, rfl⟩

end Sys2Proof.Machine

end

/-! ### The probe of an absent device (R230, R248) -/

section

namespace Sys2Proof.Machine

variable {s t : State}

/-- What the HOST has still to do on the success path after `probe`'s second check: stop, and the end. -/
def probeTail (rest : List HostOp) : List HostOp := [.access 0x794] ++ .ret .success :: rest

/-- After `probe`'s address poll. -/
def probeAddressed (rest : List HostOp) : List HostOp := .check 0x18 true :: probeTail rest

/-- After `probe`'s start poll. -/
def probeStarted (p : HostParams) (a : Nat) (rest : List HostOp) : List HostOp :=
  .check 0x08 p.uniformStop :: .access (accessWord true .data (slaW (BitVec.ofNat 7 a))) :: .access 0x784 ::
    .poll none :: probeAddressed rest

/-- `probe` as the HOST's operations (R230). -/
theorem expand_probe {p : HostParams} (a : Nat) (rest : List HostOp) (hp : p.pollBound = none) :
    expand p (.probe a) ++ rest = .access 0x7A4 :: .poll none :: probeStarted p a rest := by
  simp only [expand, startPhaseOps, firstPhaseOps, startOps, addressWriteOps, phaseOps, transmitOps, awaitOps, hp]
  rfl

/-- A state on the way of a probe from `s`: the block's phase, INT and the command in flight, no stop pending
and nothing queued; what the HOST has still to do; the events since `s`. -/
structure ProbeAt (s : State) (phase : Phase) (int : Bool) (flight : Option Cmd) (ops : List HostOp)
    (events : List BusEvent) (t : State) : Prop where
  unmarked : Unmarked t
  phase : t.phase = phase
  int : t.int = int
  flight : t.inflight = flight
  queued : t.queued = false
  noStop : t.sto = false
  ops : t.driver.ops = ops
  results : t.driver.results = s.driver.results
  trace : t.trace = s.trace ++ events

/-- With ENGINE having no step, the step of an access is exec, then the HOST's and the model's bookkeeping. -/
theorem step_access_of_next {w : AccessWord} {rest : List HostOp} {v : State} (hm : Unmarked s)
    (hs : s.sto = false) (hi : s.inflight = none) (ho : s.driver.ops = .access w :: rest)
    (hx : exec (decode s.phase w) s = .next v) :
    ∃ u, step s = .next u ∧ u = { v with
      driver := { v.driver with ops := rest }, tick := u.tick, epoch := u.epoch } := by
  have hstep := step_of_access hm ho (not_engineMoves_of_none hs hi)
  rw [engineReady_of_none hs hi, if_neg Bool.false_ne_true, hx] at hstep
  refine ⟨_, hstep, ?_⟩
  cases w.getLsbD 10 <;> rfl

variable {ops rest : List HostOp} {events : List BusEvent} {ph : Phase} {int : Bool} {v : Byte}

theorem ProbeAt.start (h : ProbeAt s .idle int none (.access 0x7A4 :: ops) events t) :
    ∃ u, step t = .next u ∧ ProbeAt s .idle false (some .start) ops events u ∧ u.bus = t.bus := by
  obtain ⟨hm, hp, -, hi, hq, hs, ho, hres, htr⟩ := h
  have hx := startBeginsOrQueues t false hm hi hq (.inl hp)
  rw [if_neg (by simp [hs]), show Instr.start false = decode t.phase 0x7A4 by rw [hp]; decide] at hx
  obtain ⟨u, hu, heq⟩ := step_access_of_next hm hs hi ho hx
  refine ⟨u, hu, ?_⟩
  rw [heq]
  exact ⟨⟨hm, hp, rfl, rfl, hq, hs, rfl, hres, htr⟩, rfl⟩

theorem ProbeAt.loadData (h : ProbeAt s ph int none (.access (accessWord true .data v) :: ops) events t) :
    ∃ u, step t = .next u ∧ ProbeAt s ph int none ops events u ∧ u.data = some v ∧ u.bus = t.bus := by
  obtain ⟨hm, hp, hint, hi, hq, hs, ho, hres, htr⟩ := h
  have hx : exec (decode t.phase (accessWord true .data v)) t = .next (t.setData (some v)) := by
    rw [decode, accessWord_top, if_neg (by decide), decodeAccess_accessWord]
    exact execWrData_next_iff.mpr ⟨hm, inFlight_eq_false_iff.mpr ⟨hi, hq⟩, rfl⟩
  obtain ⟨u, hu, heq⟩ := step_access_of_next hm hs hi ho hx
  refine ⟨u, hu, ?_⟩
  rw [heq]
  exact ⟨⟨hm, hp, hint, hi, hq, hs, rfl, hres, htr⟩, rfl, rfl⟩

theorem ProbeAt.transmit (h : ProbeAt s .started int none (.access 0x784 :: ops) events t)
    (hd : t.data = some v) :
    ∃ u, step t = .next u ∧ ProbeAt s .started false (some .transmit) ops events u ∧ u.data = some v ∧
      u.bus = t.bus := by
  obtain ⟨hm, hp, -, hi, hq, hs, ho, hres, htr⟩ := h
  have hx := ((transmitsNeedData t false hm hi hq).1 (by simp [hp])).1 (by simp [hd])
  rw [show Instr.transmitAddr false = decode t.phase 0x784 by rw [hp]; decide] at hx
  obtain ⟨u, hu, heq⟩ := step_access_of_next hm hs hi ho hx
  refine ⟨u, hu, ?_⟩
  rw [heq]
  exact ⟨⟨hm, hp, rfl, rfl, hq, hs, rfl, hres, htr⟩, hd, rfl⟩

/-- A check reads the phase's code, and leaves what `afterCheck` says. -/
theorem ProbeAt.check {code : Byte} {stop : Bool}
    (h : ProbeAt s ph int none (.check code stop :: ops) events t) :
    ∃ u x, step t = .next u ∧ x &&& 0xF8 = phaseCode Config.idleCode ph ∧ u.driver.value = some x ∧
      ProbeAt s ph int none (afterCheck code stop x ops) events u ∧ u.bus = t.bus := by
  obtain ⟨hm, hp, hint, hi, hq, hs, ho, hres, htr⟩ := h
  exact ⟨_, t.statusByte, step_check hm hs hi ho, hp ▸ statusByte_code hi hq hs, rfl,
    ⟨hm, hp, hint, hi, hq, hs, rfl, hres, htr⟩, rfl⟩

/-- The probe's first two steps: the call begins, and START goes in flight. -/
theorem probe_starts {p : HostParams} {a : Nat} (hm : Unmarked s) (hint : s.int = false)
    (hp : s.phase = .idle) (hf : s.inFlight = false) (hs : s.sto = false) (ha : a ≤ 0x7F)
    (hpoll : p.pollBound = none) (hin : inProgress rest = false)
    (ho : s.driver.ops = .call p (.probe a) :: rest) :
    ∃ t, ReachedIn 2 s t ∧
      ProbeAt s .idle false (some .start) (.poll none :: probeStarted p a rest) [] t ∧ t.bus = s.bus := by
  obtain ⟨hi, hq⟩ := inFlight_eq_false_iff.mp hf
  have hcall := ((callsAreCheckedBeforeTheirFirstAccess s p (.probe a) rest hm
    (not_engineMoves_of_none hs hi) ho).2 hin).1 ha
  rw [expand_probe a rest hpoll, engineReady_of_none hs hi] at hcall
  have hat : ProbeAt s .idle false none (.access 0x7A4 :: .poll none :: probeStarted p a rest) []
      { s with
        driver := { s.driver with ops := .access 0x7A4 :: .poll none :: probeStarted p a rest }
        bus := s.bus, tick := s.tick + 1 } :=
    ⟨hm, hp, hint, hi, hq, hs, rfl, rfl, (List.append_nil _).symm⟩
  obtain ⟨t, ht, hat, hbus⟩ := hat.start
  exact ⟨t, reachedIn_succ_iff.mpr ⟨_, hcall, reachedIn_one ht⟩, hat, hbus⟩

/-- After the start completes: the check succeeds, and the address byte goes in flight. -/
theorem probe_addresses {p : HostParams} {a : Nat}
    (h : ProbeAt s .started true none (probeStarted p a rest) events t) :
    ∃ u, ReachedIn 3 t u ∧
      ProbeAt s .started false (some .transmit) (.poll none :: probeAddressed rest) events u ∧
      u.data = some (slaW (BitVec.ofNat 7 a)) ∧ u.bus = t.bus := by
  obtain ⟨t₁, x, h₁, hx, -, hat, hb₁⟩ := h.check
  rw [afterCheck, checkStatus, statusCode, hx, phaseCode, if_pos rfl] at hat
  obtain ⟨t₂, h₂, hat, hd, hb₂⟩ := hat.loadData
  obtain ⟨t₃, h₃, hat, hd, hb₃⟩ := hat.transmit hd
  exact ⟨t₃, reachedIn_succ_iff.mpr ⟨t₁, h₁, reachedIn_succ_iff.mpr ⟨t₂, h₂, reachedIn_one h₃⟩⟩, hat, hd,
    hb₃.trans (hb₂.trans hb₁)⟩

/-- With at most a stop pending, the HOST's Error ends the operation, ENGINE's stop step coming before it or
not. -/
theorem error_ends (hm : Unmarked s) (hi : s.inflight = none) (hq : s.queued = false)
    (ho : s.driver.ops = .ret .error :: rest) :
    ∃ n u, ReachedIn n s u ∧ u.driver = { s.driver with ops := rest, results := s.driver.results ++ [.error] } ∧
      u.trace = s.trace ∧ u.phase = s.phase := by
  have ends : ∀ s : State, Unmarked s → s.driver.ops = .ret .error :: rest → ¬ EngineMoves s →
      ∃ u, ReachedIn 1 s u ∧
        u.driver = { s.driver with ops := rest, results := s.driver.results ++ [.error] } ∧
        u.trace = s.trace ∧ u.phase = s.phase := by
    intro s hm ho he
    have hret : ∀ s' : State, s'.driver = s.driver →
        hostStep s' = .next ((s'.addResult .error).setOps rest) := fun s' hd => by
      rw [hostStep_of_ops (hd ▸ ho), hostOp]
    have hstep := step_of_not_engineMoves hm he
    rw [hret _ (by split <;> rfl), mapNext_next] at hstep
    refine ⟨_, reachedIn_one hstep, ?_⟩
    cases s.engineReady <;> exact ⟨rfl, rfl, rfl⟩
  by_cases he : EngineMoves s
  · obtain ⟨u, hu, hstep⟩ := step_of_engineMoves hm he
    obtain ⟨_, _, -, ⟨-, rfl⟩ | ⟨-, c, _, hc, -⟩⟩ := engineStep_cases hu
    · obtain ⟨u, hu, hmu, hsu, hiu, hd, htr, hp⟩ : ∃ u, step s = .next u ∧ Unmarked u ∧ u.sto = false ∧
          u.inflight = none ∧ u.driver = s.driver ∧ u.trace = s.trace ∧ u.phase = s.phase := by
        rw [stopDone_eq] at hstep
        exact ⟨_, hstep, hm, rfl, (if_neg (by simp [State.takeBusMove, hq])).trans hi, rfl, rfl, rfl⟩
      obtain ⟨w, hw, hfields⟩ := ends u hmu (hd ▸ ho) (not_engineMoves_of_none hsu hiu)
      rw [hd, htr, hp] at hfields
      exact ⟨2, w, reachedIn_succ_iff.mpr ⟨u, hu, hw⟩, hfields⟩
    · exact absurd (hi.symm.trans hc) (by simp)
  · obtain ⟨u, hu, hfields⟩ := ends s hm ho he
    exact ⟨1, u, hu, hfields⟩

/-- After the address byte is not acknowledged: the check fails, STOP is written, and the HOST's Error ends
the probe. -/
theorem probe_fails (h : ProbeAt s .mtSlaNack true none (probeAddressed rest) events t) :
    ∃ n u, ReachedIn n t u ∧ u.driver.ops = rest ∧ u.driver.results = s.driver.results ++ [.error] ∧
      u.trace = s.trace ++ events ++ [.stop] ∧
      (u.driver.value.map fun v => v &&& 0xF8) = some 0x20 ∧ u.phase = .idle := by
  obtain ⟨t₁, x, h₁, hx, hval, hat, -⟩ := h.check
  rw [probeTail, afterCheck_append_ret rest .success rfl, hx, phaseCode, if_neg (by decide), if_pos rfl] at hat
  obtain ⟨hm, hp, -, hi, hq, hs, ho, hres, htr⟩ := hat
  have hstop := (stopReleasesTheBus t₁ false hm hi hq).2 (by simp [hp])
  rw [show Instr.stop false = decode t₁.phase 0x794 by rw [hp]; decide] at hstop
  obtain ⟨t₂, h₂, heq⟩ := step_access_of_next hm hs hi ho hstop
  have hfields : Unmarked t₂ ∧ t₂.inflight = none ∧ t₂.queued = false ∧ t₂.driver.ops = .ret .error :: rest ∧
      t₂.driver.results = s.driver.results ∧ t₂.driver.value = some x ∧
      t₂.trace = s.trace ++ events ++ [.stop] ∧ t₂.phase = .idle := by
    rw [heq]
    exact ⟨hm, hi, hq, rfl, hres, hval, congrArg (· ++ [BusEvent.stop]) htr, rfl⟩
  obtain ⟨hm₂, hi₂, hq₂, ho₂, hres₂, hval₂, htr₂, hp₂⟩ := hfields
  obtain ⟨n, u, hu, hdriver, htrace, hphase⟩ := error_ends hm₂ hi₂ hq₂ ho₂
  refine ⟨n + 1 + 1, u, reachedIn_succ_iff.mpr ⟨t₁, h₁, reachedIn_succ_iff.mpr ⟨t₂, h₂, hu⟩⟩, ?_⟩
  rw [hdriver, htrace, hphase, htr₂, hp₂, hres₂, hval₂]
  exact ⟨rfl, rfl, rfl, congrArg some hx, rfl⟩

/-- A poll's completion on the way of a probe. -/
theorem ProbeAt.completed {c : Cmd} {o : Completion} {u : State}
    (h : ProbeAt s ph int (some c) (.poll none :: ops) events t) (hd : PolledCompletion ops o t u) :
    ProbeAt s o.phase true none ops (events ++ [o.event]) u := by
  obtain ⟨hm, -, -, -, hq, hs, -, hres, htr⟩ := h
  rw [hd]
  exact ⟨hm, rfl, rfl, rfl, hq, hs, rfl, hres, by rw [← List.append_assoc, ← htr]⟩

/-! #### A script that completes after a number of waits -/

/-- A poll passes the waits of the script while a command in flight can be completed. -/
theorem poll_passes_waits {script : List BusMove} (k : Nat) (hm : Unmarked s) (hint : s.int = false)
    (ho : s.driver.ops = .poll none :: rest) (hr : s.engineReady = true)
    (hb : s.bus = List.replicate k .wait ++ script) :
    ∃ x n, ReachedIn k s (s.afterWaits x script n) := by
  induction k generalizing s with
  | zero =>
    refine ⟨s.driver.value, s.tick, ?_⟩
    rw [List.replicate_zero, List.nil_append] at hb
    subst hb
    rfl
  | succ k ih =>
    have he : ¬ EngineMoves s := by
      simp [EngineMoves, State.busMove, hb, List.replicate_succ, State.engineStep]
    have hstep := step_poll_waits hm hint ho he
    rw [hr, if_pos rfl, hb, List.replicate_succ, List.cons_append, List.tail_cons] at hstep
    obtain ⟨x, n, hn⟩ := ih (s := s.afterWaits (some s.ctrlByte) (List.replicate k .wait ++ script) (s.tick + 1))
      hm hint ho hr rfl
    exact ⟨x, n, reachedIn_succ_iff.mpr ⟨_, hstep, hn⟩⟩

/-- A poll for a command in flight, with a script that completes it after `k` waits. -/
theorem ProbeAt.scripted {c : Cmd} {a : Answer} {r : Byte} {o : Completion} {script : List BusMove} (k : Nat)
    (h : ProbeAt s ph false (some c) (.poll none :: ops) events t)
    (hr : (t.outcome c .success 0).isSome = true) (hout : t.outcome c a r = some o)
    (hb : t.bus = List.replicate k .wait ++ .complete a r :: script) :
    ∃ u, ReachedIn (k + 2) t u ∧ ProbeAt s o.phase true none ops (events ++ [o.event]) u ∧ u.bus = script := by
  obtain ⟨hm, hp, hint, hc, hq, hs, ho, hres, htr⟩ := h
  have hready : t.engineReady = true := by
    rw [State.engineReady, completionReady_of_inflight hc, hr, Bool.or_true]
  obtain ⟨x, n, hn⟩ := poll_passes_waits k hm hint ho hready hb
  obtain ⟨u, hu, hd, hbus⟩ := poll_ends (s := t.afterWaits x (.complete a r :: script) n) hm hs hc ho hready rfl hout
  exact ⟨u, reachedIn_trans hn hu,
    ProbeAt.completed (t := t) ⟨hm, hp, hint, hc, hq, hs, ho, hres, htr⟩ hd, hbus⟩

/-- The row of a START from Idle (R183). -/
theorem start_row (hp : s.phase = .idle) (ans : Answer) (r : Byte) :
    s.outcome .start ans r = plainRow Config.envBusError ⟨.started, .start, s.data⟩ ans := by
  rw [State.outcome, hp]
  rfl

/-- The address byte with W names its address, and its direction is write (R78). -/
theorem slaW_view (a : SlaveAddress) : slaAddress (slaW a) = a ∧ slaIsRead (slaW a) = false := by
  obtain ⟨-, haddress, hread, -⟩ := addressByteIsAddressThenDirection a 0
  exact ⟨haddress, hread⟩

/-- The row of the probe's address byte, which has direction W (R78, R183). -/
theorem probe_row {a : SlaveAddress} (hp : s.phase = .started) (hd : s.data = some (slaW a)) (ans : Answer)
    (r : Byte) :
    s.outcome .transmit ans r = transmitRow Config.envBusError (slaW a) .mtSlaAck .mtSlaNack ans := by
  rw [State.outcome, hp, hd, outcome, (slaW_view a).2]
  rfl

/-- Settles O58: START, the address byte and the stop, by the two polls' scripts. -/
theorem probeOfAnAbsentDeviceReturnsError : Obligations.ProbeOfAnAbsentDeviceReturnsError := by
  intro s p a rest script k₁ k₂ r₁ r₂ hm hb hp hf hs ha hpoll hin ho hbus
  obtain ⟨t₁, h₁, hat₁, hb₁⟩ := probe_starts hm (int_of_idle hb hp) hp hf hs ha hpoll hin ho
  have hstart := start_row hat₁.phase
  obtain ⟨t₂, h₂, hat₂, hb₂⟩ := hat₁.scripted k₁ (by rw [hstart]; rfl) (hstart .success r₁) (hb₁.trans hbus)
  obtain ⟨t₃, h₃, hat₃, hd, hb₃⟩ := probe_addresses hat₂
  have hrow := probe_row hat₃.phase hd
  obtain ⟨t₄, h₄, hat₄, -⟩ := hat₃.scripted k₂ (by rw [hrow]; rfl) (hrow .nack r₂) (hb₃.trans hb₂)
  obtain ⟨n, t, ht, hend⟩ := probe_fails hat₄
  exact ⟨_, t, reachedIn_trans h₁ (reachedIn_trans h₂ (reachedIn_trans h₃ (reachedIn_trans h₄ ht))),
    by simpa using hend⟩

/-! #### A run under the premises -/

/-- Under BusLive a poll on the way of a probe ends with a completion BUS chose on the run. -/
theorem ProbeAt.live {c : Cmd} {n : Nat} (h : ProbeAt s ph false (some c) (.poll none :: ops) events t)
    (hn : ReachedIn n s t) (hl : BusLive s) (hr : (t.outcome c .success 0).isSome = true) :
    ∃ a r o, t.outcome c a r = some o ∧
      (∃ m x b k, ReachedIn m s (t.afterWaits x b k) ∧ (t.afterWaits x b k).engineReady = true ∧
        (t.afterWaits x b k).busMove = .complete a r) ∧
      ∃ m u, ReachedIn m s u ∧ ProbeAt s o.phase true none ops (events ++ [o.event]) u := by
  have hf : FlightInv t := fun _ => (completionReady_of_inflight h.flight).trans hr
  obtain ⟨a, r, o, hout, ⟨m, x, b, k, hm, hready, hmove⟩, m', u, hu, hd⟩ :=
    poll_ends_of_busLive h.unmarked h.int h.noStop h.flight hf h.ops (hl.of_reachedIn hn)
  exact ⟨a, r, o, hout, ⟨n + m, x, b, k, reachedIn_trans hn hm, hready, hmove⟩,
    n + m', u, reachedIn_trans hn hu, h.completed hd⟩

theorem quietMove_complete_iff {a : Answer} {r : Byte} :
    quietMove (.complete a r) = true ↔ a = .success ∨ a = .nack := by
  cases a <;> simp [quietMove]

/-- Settles O60: a quiet BUS completes START with success, and the address byte with Nack, since NoDevice
rules out the Ack. -/
theorem probeFailsUnderNoDeviceAndQuiet : Obligations.ProbeFailsUnderNoDeviceAndQuiet := by
  intro s p a rest hm hb hp hf hs ha hpoll hin ho hl hquiet hnone
  obtain ⟨t₁, h₁, hat₁, -⟩ := probe_starts hm (int_of_idle hb hp) hp hf hs ha hpoll hin ho
  have hrow₁ := start_row hat₁.phase
  obtain ⟨a₁, r₁, o₁, hout₁, ⟨m₁, x₁, b₁, k₁, hw₁, hready₁, hmove₁⟩, n₂, t₂, h₂, hat₂⟩ :=
    hat₁.live h₁ hl (by rw [hrow₁]; rfl)
  have hq₁ := hquiet m₁ _ hw₁ hready₁
  rw [hmove₁, quietMove_complete_iff] at hq₁
  rw [hrow₁] at hout₁
  obtain rfl | rfl := hq₁
  case inr => cases hout₁
  cases hout₁
  obtain ⟨t₃, h₃, hat₃, hd, -⟩ := probe_addresses hat₂
  have hrow₃ := probe_row hat₃.phase hd
  obtain ⟨a₃, r₃, o₃, hout₃, ⟨m₃, x₃, b₃, k₃, hw₃, hready₃, hmove₃⟩, n₄, t₄, h₄, hat₄⟩ :=
    hat₃.live (reachedIn_trans h₂ h₃) hl (by rw [hrow₃]; rfl)
  have hq₃ := hquiet m₃ _ hw₃ hready₃
  rw [hmove₃, quietMove_complete_iff] at hq₃
  rw [hrow₃] at hout₃
  obtain rfl | rfl := hq₃
  · exact absurd hmove₃ (hnone m₃ _ hw₃ hready₃ _ r₃ hat₃.flight (.inl hat₃.phase) hd (slaW_view _).1)
  · cases hout₃
    obtain ⟨n, t, ht, hend⟩ := probe_fails hat₄
    exact ⟨n₄ + n, t, reachedIn_trans h₄ ht, by simpa using hend⟩

end Sys2Proof.Machine

end

/-! ### The accesses: reads, register writes, frames (R52, R58, R59, R100 to R110) -/

section

namespace Sys2Proof.Machine

variable {s t : State}

/-- Settles O3: each word is its row's bits. -/
theorem specWordsDecodeAsListed : Obligations.SpecWordsDecodeAsListed := by
  unfold Obligations.SpecWordsDecodeAsListed
  decide

/-- Settles O8: the three values of `dataByte`. -/
theorem dataReadReturnsDataOrFaults : Obligations.DataReadReturnsDataOrFaults := by
  refine ⟨by decide, fun s hm => ⟨fun hf => ?_, fun hi hq => ?_⟩⟩
  · have hb : s.dataByte = some (Config.freeDataByte s.epoch) := by
      rw [State.dataByte, if_pos (inFlight_eq_true_iff.mpr hf)]
    exact execRdData_next_iff.mpr ⟨hm, _, hb, rfl⟩
  · have hb : s.dataByte = s.data := by
      rw [State.dataByte, inFlight_eq_false_iff.mpr ⟨hi, hq⟩, if_neg Bool.false_ne_true]
    refine ⟨fun b hd => execRdData_next_iff.mpr ⟨hm, b, hb.trans hd, rfl⟩, fun hd => ?_⟩
    rw [exec, execRdData, unlessMarked_of_unmarked hm.1 hm.2, hb, hd, raiseFault]

/-- The fields of a STATUS byte (R105): PS, 0, the code. -/
theorem statusByte_fields (s : State) :
    s.statusByte.extractLsb' 0 2 = s.ps ∧ s.statusByte.getLsbD 2 = false ∧
      s.statusByte.extractLsb' 3 5 = s.statusField := by
  unfold State.statusByte
  generalize s.statusField = f, s.ps = p
  revert f p
  decide

/-- Settles O9: the byte is `statusByte`, whose fields are the code or the free value, 0 and PS. -/
theorem statusReadReturnsCodeAndPrescaler : Obligations.StatusReadReturnsCodeAndPrescaler := by
  refine ⟨by decide, fun s hm => ?_⟩
  obtain ⟨hps, hbit, hfield⟩ := statusByte_fields s
  have hbusy : s.busy = true ↔ s.inflight ≠ none ∨ s.queued = true ∨ s.sto = true := by
    rw [State.busy, Bool.or_eq_true, inFlight_eq_true_iff, or_assoc]
  refine ⟨s.statusByte, execRdStatus_next_iff.mpr ⟨hm, rfl⟩, hps, hbit, ?_⟩
  simp only [hfield, State.statusField, hbusy]

/-- Settles O10: not busy, the byte's code is the phase's row. -/
theorem statusReadShowsTheCodeTable : Obligations.StatusReadShowsTheCodeTable := by
  intro s hm hi hq hs
  refine ⟨s.statusByte, execRdStatus_next_iff.mpr ⟨hm, rfl⟩, ?_⟩
  rw [statusByte_code hi hq hs]
  cases s.phase <;> rfl

/-- Settles O12: a read depends on nothing but what it leaves as it was. -/
theorem readsAreRepeatable : Obligations.ReadsAreRepeatable := by
  intro s t i hi h
  simp only [List.mem_cons, List.not_mem_nil, or_false] at hi
  obtain rfl | rfl | rfl | rfl := hi
  · obtain ⟨hm, rfl⟩ := execRdBaud_next_iff.mp h
    exact ⟨execRdBaud_next_iff.mpr ⟨hm, rfl⟩, rfl⟩
  · obtain ⟨hm, rfl⟩ := execRdStatus_next_iff.mp h
    exact ⟨execRdStatus_next_iff.mpr ⟨hm, rfl⟩, rfl⟩
  · obtain ⟨hm, b, hb, rfl⟩ := execRdData_next_iff.mp h
    exact ⟨execRdData_next_iff.mpr ⟨hm, b, hb, rfl⟩, rfl⟩
  · obtain ⟨hm, rfl⟩ := execRdCtrl_next_iff.mp h
    exact ⟨execRdCtrl_next_iff.mpr ⟨hm, rfl⟩, rfl⟩

/-! #### Register writes -/

/-- A word of a register write is its fields put together (R70). -/
theorem accessWord_write (r : Reg) (v : Byte) :
    accessWord true r v = accessWord true r 0 ||| v.setWidth 11 := by
  cases r <;> revert v <;> decide

/-- A register write in flight is refused first, whichever it is (R101). -/
theorem exec_write_of_inFlight {i : Instr} (hi : i.isWrite = true) (hm : Unmarked s) (h : s.inFlight = true) :
    exec i s = .refused .writeWhileInFlight := by
  cases i with
  | rdBaud | rdStatus | rdData | rdCtrl => cases hi
  | _ => exact hostWrite_of_inFlight hm h _

/-- A write of STATUS or BAUD while a stop is pending is refused (R102). -/
theorem configWrite_of_stop (hm : Unmarked s) (hf : s.inFlight = false) (hs : s.sto = true) (k : Answered) :
    configWrite s k = .refused .configWhileBusy := by
  rw [configWrite, hostWrite_of_free hm hf, State.busy, hf, hs, Bool.or_true, if_pos rfl, refuse]

/-- Settles O13: WR DATA is refused in flight only. -/
theorem dataWriteStoresTheByte : Obligations.DataWriteStoresTheByte := by
  intro s v hm
  refine ⟨accessWord_write .data v, fun hi hq => ?_, fun h => ?_⟩
  · exact execWrData_next_iff.mpr ⟨hm, inFlight_eq_false_iff.mpr ⟨hi, hq⟩, rfl⟩
  · exact exec_write_of_inFlight rfl hm (inFlight_eq_true_iff.mpr h)

/-- Settles O14: WR STATUS is refused in flight, then while a stop is pending. -/
theorem statusWriteStoresThePrescaler : Obligations.StatusWriteStoresThePrescaler := by
  intro s v hm
  refine ⟨accessWord_write .status v, fun hi hq hs => ?_, fun h => ?_, fun hi hq hs => ?_⟩
  · exact execWrStatus_next_iff.mpr ⟨hm, busy_eq_false_iff.mpr ⟨hi, hq, hs⟩, rfl⟩
  · exact exec_write_of_inFlight rfl hm (inFlight_eq_true_iff.mpr h)
  · exact configWrite_of_stop hm (inFlight_eq_false_iff.mpr ⟨hi, hq⟩) hs _

/-- Settles O15: WR BAUD is refused as WR STATUS is. -/
theorem baudWriteStoresTheDivisor : Obligations.BaudWriteStoresTheDivisor := by
  intro s v hm
  refine ⟨accessWord_write .baud v, fun hi hq hs => ?_, fun h => ?_, fun hi hq hs => ?_⟩
  · exact execWrBaud_next_iff.mpr ⟨hm, busy_eq_false_iff.mpr ⟨hi, hq, hs⟩, rfl⟩
  · exact exec_write_of_inFlight rfl hm (inFlight_eq_true_iff.mpr h)
  · exact configWrite_of_stop hm (inFlight_eq_false_iff.mpr ⟨hi, hq⟩) hs _

theorem isWrite_eq_false_iff {i : Instr} :
    i.isWrite = false ↔ i ∈ [Instr.rdBaud, .rdStatus, .rdData, .rdCtrl] := by
  cases i <;> simp [Instr.isWrite]

/-- Settles O16: every write checks `inFlight` first, and in flight a DATA read is a free byte. -/
theorem writesInFlightAreRefusedFirst : Obligations.WritesInFlightAreRefusedFirst := by
  intro s i hm hf
  rw [← isWrite_eq_false_iff, Bool.not_eq_false]
  refine ⟨fun hi => exec_write_of_inFlight hi hm (inFlight_eq_true_iff.mpr hf), fun hi => ?_⟩
  rw [isWrite_eq_false_iff] at hi
  simp only [List.mem_cons, List.not_mem_nil, or_false] at hi
  obtain rfl | rfl | rfl | rfl := hi
  · exact ⟨_, execRdBaud_next_iff.mpr ⟨hm, rfl⟩⟩
  · exact ⟨_, execRdStatus_next_iff.mpr ⟨hm, rfl⟩⟩
  · exact ⟨_, (dataReadReturnsDataOrFaults.2 s hm).1 hf⟩
  · exact ⟨_, execRdCtrl_next_iff.mpr ⟨hm, rfl⟩⟩

/-! #### Frames -/

/-- A read leaves all but the byte the HOST holds (R58). -/
theorem exec_read_next {i : Instr} (hi : i.isWrite = false) (h : exec i s = .next t) : ∃ v, t = s.readBack v := by
  obtain ⟨-, hv⟩ | ⟨v, rfl, -⟩ | ⟨v, rfl, -⟩ | ⟨v, rfl, -⟩ | ⟨c, ea, rfl | ⟨v, rfl, -⟩, -⟩ := exec_next_cases h
  case inl => exact hv
  case inr.inr.inr.inr.inl => simp at hi
  all_goals cases hi

/-- A command changes only the phase, the CTRL bits, the in-flight marks and the trace (R59). -/
theorem perform_frame {c : Command} {ea : Bool} (h : perform c ea s = .next t) :
    t = { s with
      phase := t.phase, int := t.int, ea := t.ea, sta := t.sta, sto := t.sto, en := t.en
      inflight := t.inflight, queued := t.queued, trace := t.trace } := by
  obtain ⟨-, -, -, rfl⟩ := perform_next_iff.mp h
  cases c with
  | start => cases hs : s.sto <;> simp [commandEffect, hs]
  | _ => rfl

/-- Settles O30: each access is its one update, and a command's frame is `perform_frame`. -/
theorem accessesChangeOnlyWhatTheyWrite : Obligations.AccessesChangeOnlyWhatTheyWrite := by
  intro s t i h
  have command : ∀ c ea, perform c ea s = .next t →
      (∀ a, memRead t.driver.mem a = memRead s.driver.mem a) ∧
      t.driver.ops = s.driver.ops ∧ t.driver.results = s.driver.results ∧
      t.bus = s.bus ∧ t.tick = s.tick ∧ t.epoch = s.epoch ∧ t.fault = s.fault ∧ t.refused = s.refused ∧
      t = { s with
        phase := t.phase, int := t.int, ea := t.ea, sta := t.sta, sto := t.sto, en := t.en
        inflight := t.inflight, queued := t.queued, trace := t.trace } := by
    intro c ea hp
    rw [perform_frame hp]
    exact ⟨fun _ => rfl, rfl, rfl, rfl, rfl, rfl, rfl, rfl, rfl⟩
  cases i with
  | rdBaud | rdStatus | rdData | rdCtrl =>
    obtain ⟨v, rfl⟩ := exec_read_next rfl h
    exact ⟨fun _ => rfl, rfl, rfl, rfl, rfl, rfl, rfl, rfl, rfl⟩
  | wrBaud v =>
    obtain ⟨-, -, rfl⟩ := execWrBaud_next_iff.mp h
    exact ⟨fun _ => rfl, rfl, rfl, rfl, rfl, rfl, rfl, rfl, rfl⟩
  | wrStatus v =>
    obtain ⟨-, -, rfl⟩ := execWrStatus_next_iff.mp h
    exact ⟨fun _ => rfl, rfl, rfl, rfl, rfl, rfl, rfl, rfl, rfl⟩
  | wrData v =>
    obtain ⟨-, -, rfl⟩ := execWrData_next_iff.mp h
    exact ⟨fun _ => rfl, rfl, rfl, rfl, rfl, rfl, rfl, rfl, rfl⟩
  | wrCtrl v =>
    obtain ⟨-, c, -, hp⟩ := execWrCtrl_next_iff.mp h
    exact command c _ hp
  | enable ea => exact command .enable ea h
  | disable ea => exact command .disable ea h
  | start ea => exact command .start ea h
  | repStart ea => exact command .repStart ea h
  | stop ea => exact command .stop ea h
  | transmitAddr ea => exact command .transmitAddr ea h
  | transmitData ea => exact command .transmitData ea h
  | receiveAck => exact command .receiveAck true h
  | receiveNack => exact command .receiveNack false h

/-- Only STOP's effect has an event, and that from an owned phase (R152). -/
theorem commandEffect_trace {c : Command} {ea : Bool} (hr : CommandReady c s) :
    (commandEffect c ea s).trace = s.trace ∨
      c = .stop ∧ owner s.phase = true ∧ (commandEffect c ea s).trace = s.trace ++ [.stop] ∧
        (commandEffect c ea s).phase = .idle ∧ (commandEffect c ea s).sto = true := by
  obtain ⟨-, ht⟩ | ⟨-, -, ht⟩ | ⟨hc, -, ht⟩ | ⟨-, -, -, ht⟩ | ⟨⟨k, e, a, ht, -⟩, -⟩ :=
    commandEffect_cases (ea := ea) hr <;> rw [ht]
  case inr.inr.inl => cases ho : owner s.phase <;> simp [hc]
  all_goals exact .inl rfl

/-- Settles O31: the command of an access that emits is STOP, and its value has bit 4. -/
theorem onlyStopEmitsAtItsWrite : Obligations.OnlyStopEmitsAtItsWrite := by
  intro s t i h
  obtain hk | ⟨c, ea, hc, -, hr, rfl⟩ := exec_block_cases h
  · exact .inl hk.trace
  · obtain htr | ⟨rfl, ho, htr, hp, hs⟩ := commandEffect_trace (ea := ea) hr
    · exact .inl htr
    · refine .inr ⟨?_, ho, htr, hp, hs⟩
      obtain rfl | ⟨v, rfl, hd, hsel, -⟩ := hc
      · exact .inl ⟨ea, rfl⟩
      · obtain ⟨-, -, h4, -⟩ := selectCommand_bits hd hsel
        exact .inr ⟨v, rfl, h4⟩

/-! #### Marked states -/

/-- A marked state answers its own mark again, whatever would come after the check (R100). -/
theorem unlessMarked_of_marked (h : ¬ Unmarked s) (k : Answered) :
    (∀ t, unlessMarked s k ≠ .next t) ∧ settle s (unlessMarked s k) = s := by
  refine ⟨fun t ht => h (unlessMarked_next_iff.mp ht).1, ?_⟩
  unfold unlessMarked
  cases hf : s.fault with
  | some r => simp only [raiseFault, settle, ← hf]
  | none =>
    cases hr : s.refused with
    | some r => simp only [refuse, settle, ← hr]
    | none => exact absurd ⟨hf, hr⟩ h

/-- Every access checks the marks first. -/
theorem exec_eq_unlessMarked (i : Instr) (s : State) : ∃ k, exec i s = unlessMarked s k := by
  cases i <;> exact ⟨_, rfl⟩

/-- Settles O48: every access and every step checks the marks first. -/
theorem markedStatesAreFinal : Obligations.MarkedStatesAreFinal := by
  intro s h
  refine ⟨fun i => ?_, unlessMarked_of_marked h _⟩
  obtain ⟨k, hk⟩ := exec_eq_unlessMarked i s
  rw [hk]
  exact unlessMarked_of_marked h k

end Sys2Proof.Machine

end

/-! ### ENGINE's steps and the outcome sets (R180 to R185) -/

section

namespace Sys2Proof.Machine

variable {s t : State}

/-- A row with any member has its first (R183): BUS's answer `success` names it, whatever the byte. -/
theorem outcome_success_isSome {e : Bool} {c : Cmd} {p : Phase} {d : Option Byte} {a : Answer} {r : Byte}
    {o : Completion} (h : outcome e c p d a r = some o) : (outcome e c p d .success 0).isSome = true := by
  revert h
  cases c with
  | start | recvAck | recvNack => cases p <;> simp [outcome, plainRow]
  | transmit =>
    cases d with
    | none => simp [outcome]
    | some b => cases p <;> cases hb : slaIsRead b <;> simp [outcome, transmitRow, hb]

theorem busMove_of_script {m : BusMove} {script : List BusMove} (hb : s.bus = m :: script) : s.busMove = m := by
  rw [State.busMove, hb]

/-- Settles O33: BUS's choice makes ENGINE's step the stop step. -/
theorem stopStepClearsThePendingStop : Obligations.StopStepClearsThePendingStop := by
  intro s a r script hm hs hb
  have hengine : s.takeBusMove.engineStep s.busMove = some s.takeBusMove.stopDone := by
    rw [busMove_of_script hb]
    exact engineStep_stop (s := s.takeBusMove) hs
  rw [step_of_engineStep hm (by rw [State.engineReady, State.stopReady, hs, Bool.true_or]) hengine, stopDone_eq,
    State.takeBusMove, hb]
  rfl

/-- Settles O34: BUS's choice makes ENGINE's step the completion it names. -/
theorem completionMakesItsFiveWrites : Obligations.CompletionMakesItsFiveWrites := by
  intro s c a r o script hm hs hc hb ho
  have hengine : s.takeBusMove.engineStep s.busMove = some (s.takeBusMove.complete o) := by
    rw [busMove_of_script hb]
    exact engineStep_completion (s := s.takeBusMove) hs hc ho
  have hready : s.engineReady = true := by
    rw [State.engineReady, completionReady_of_inflight hc, State.outcome, outcome_success_isSome ho, Bool.or_true]
  rw [step_of_engineStep hm hready hengine, complete_eq, State.takeBusMove, hb]
  rfl

/-- Settles O35: the rows as `outcome` has them. -/
theorem outcomesFollowTheTable : Obligations.OutcomesFollowTheTable := by
  intro e p d b r
  refine ⟨fun hp => ?_, fun hp => ?_, fun hp => ?_, fun hp => ?_, fun hp => ?_⟩
  · simp only [List.mem_cons, List.not_mem_nil, or_false] at hp
    obtain rfl | rfl | rfl := hp <;> exact ⟨rfl, rfl, rfl, rfl⟩
  · simp only [List.mem_cons, List.not_mem_nil, or_false] at hp
    obtain rfl | rfl := hp <;> cases hb : b.getLsbD 0 <;>
      simp only [outcome, slaIsRead, hb] <;> exact ⟨rfl, rfl⟩
  · simp only [List.mem_cons, List.not_mem_nil, or_false] at hp
    obtain rfl | rfl := hp <;> exact ⟨rfl, rfl⟩
  · simp only [List.mem_cons, List.not_mem_nil, or_false] at hp
    cases hb : b.getLsbD 0 <;> obtain rfl | rfl | rfl | rfl := hp <;>
      simp [outcome, slaIsRead, transmitRow, failedOutcome, hb]
  · simp only [List.mem_cons, List.not_mem_nil, or_false] at hp
    refine ⟨?_, ?_, fun c hc => ?_⟩
    · obtain rfl | rfl := hp <;> rfl
    · obtain rfl | rfl := hp <;> rfl
    · simp only [List.mem_cons, List.not_mem_nil, or_false] at hc
      obtain rfl | rfl := hp <;> obtain rfl | rfl := hc <;> exact ⟨rfl, rfl, rfl⟩

/-- Settles O36: the two steps of R180 and R181. -/
theorem engineHasNoOtherStep : Obligations.EngineHasNoOtherStep := by
  intro s t m h
  obtain ⟨a, r, -, ⟨hs, rfl⟩ | ⟨hs, c, o, hc, -, rfl⟩⟩ := engineStep_cases h
  · rw [stopDone_eq]
    exact .inl ⟨hs, rfl, rfl, rfl, rfl, rfl, rfl, rfl⟩
  · exact .inr ⟨hs, by simp [hc], rfl, rfl, hs, o.event, rfl⟩

/-- Settles O47: a pending stop and a command in flight exclude each other (R41 item 2). -/
theorem atMostOneEngineStepIsEnabled : Obligations.AtMostOneEngineStepIsEnabled := by
  rintro s hb ⟨hstop, hready⟩
  have hi : s.inflight ≠ none := by
    intro hi
    simp [State.completionReady, hi] at hready
  obtain ⟨-, hs, -⟩ := blockInv_inflight hb hi
  exact absurd (hs.symm.trans hstop) Bool.false_ne_true

/-! #### A completed result -/

/-- A HOST step that writes no register changes nothing but the HOST. -/
theorem hostStep_of_no_write (h : hostStep s = .next t)
    (hw : ∀ w rest, s.driver.ops = .access w :: rest → w.getLsbD 10 = false)
    (hl : ∀ a rest, s.driver.ops ≠ .loadData a :: rest) : ∃ d, t = s.setDriver d := by
  obtain rfl | ⟨op, rest, ho, -, ⟨d, rfl⟩ | ⟨i, v, hi, hv, d, rfl⟩⟩ := hostStep_next_cases h
  · exact ⟨t.driver, rfl⟩
  · exact ⟨d, rfl⟩
  · have hread : i.isWrite = false := by
      cases op with
      | access w =>
        cases hi
        exact (isWrite_decode _ w).trans (hw w rest ho)
      | poll _ | check _ _ | storeData _ =>
        cases hi
        rfl
      | loadData a => exact absurd ho (hl a rest)
      | call _ _ | ret _ => cases hi
    obtain ⟨x, rfl⟩ := exec_read_next hread hv
    rw [hread]
    exact ⟨d, rfl⟩

/-- Settles O37: with INT 1 nothing is pending (R41 items 2 to 5), so ENGINE has no step, and a HOST step that
writes nothing leaves the block. -/
theorem completedResultStaysUntilAWrite : Obligations.CompletedResultStaysUntilAWrite := by
  rintro s t ⟨-, -, -, hstop, hint, -, -⟩ h1 h hw hl
  obtain ⟨hi, -, -⟩ := hint h1
  have hs : s.sto = false := Bool.eq_false_iff.mpr fun hs => by simp [hstop hs] at h1
  obtain ⟨hm, -⟩ := step_cases h
  rw [step_of_engine_none hm hs hi] at h
  obtain ⟨u, hu, rfl⟩ := mapNext_next_iff.mp h
  obtain ⟨d, rfl⟩ := hostStep_of_no_write hu hw hl
  exact ⟨h1, rfl, rfl, rfl, rfl, hi⟩

/-- Settles O50: nothing is pending in Off (R41 item 6), no access emits where the bus is not owned, and Off's row
of the table is blank. -/
theorem offTakesNoPartInTheBus : Obligations.OffTakesNoPartInTheBus := by
  intro s hb hp
  obtain ⟨hi, hs, hq, -⟩ := blockInv_off hb hp
  refine ⟨engineReady_of_none hs hi, fun t h => ?_, fun hm ea i hmem => ?_⟩
  · obtain ⟨hm, -⟩ := step_cases h
    rw [step_of_engine_none hm hs hi] at h
    obtain ⟨u, hu, rfl⟩ := mapNext_next_iff.mp h
    have hexec : ∀ i v, exec i s = .next v → v.trace = s.trace := fun i v hv =>
      (onlyStopEmitsAtItsWrite s v i hv).resolve_right fun ⟨_, ho, _⟩ => by simp [hp, owner] at ho
    obtain ⟨d, rfl, -⟩ | ⟨i, v, hv, d, rfl | rfl, -⟩ := hostStep_cases hu
    · rfl
    · exact hexec i v hv
    · exact hexec i v hv
  · obtain ⟨start, repStart, stop, transmitAddr, transmitData, receiveAck, receiveNack⟩ :=
      admissionFollowsTheTable s ea hm hi hq
    simp only [List.mem_cons, List.not_mem_nil, or_false] at hmem
    obtain rfl | rfl | rfl | rfl | rfl | rfl | rfl := hmem
    · exact start.mpr (by simp [hp])
    · exact repStart.mpr (by simp [hp])
    · exact stop.mpr (by simp [hp])
    · exact transmitAddr.mpr (by simp [hp])
    · exact transmitData.mpr (by simp [hp])
    · exact receiveAck.mpr (by simp [hp])
    · exact receiveNack.mpr (by simp [hp])

/-! #### Where each answer leads (R183) -/

/-- A success member comes from the answer `success` only. -/
theorem outcome_success_iff {e : Bool} {c : Cmd} {p : Phase} {d : Option Byte} {a : Answer} {r : Byte}
    {o : Completion} (h : outcome e c p d a r = some o) : o.phase ∈ successPhases ↔ a = .success := by
  have hnack : ∀ p ∈ nackPhases, p ∉ successPhases := by decide
  have herror : ∀ p ∈ errorPhases, p ∉ successPhases := by decide
  obtain ⟨ha, hp⟩ | ⟨ha, hp⟩ | ⟨ha, hp⟩ := outcome_phase_cases h
  · exact ⟨fun _ => ha, fun _ => hp⟩
  · exact ⟨fun hs => absurd hs (hnack _ hp), fun hs => by simp [ha] at hs⟩
  · exact ⟨fun hs => absurd hs (herror _ hp), fun hs => by simp [hs] at ha⟩

/-- A success phase's code is no other phase's (R34). -/
theorem mem_successPhases_of_code {p q : Phase} (hq : q ∈ successPhases)
    (h : phaseCode Config.idleCode p = phaseCode Config.idleCode q) : p ∈ successPhases := by
  revert q
  cases p <;> decide

/-- The command of the row a command in flight is completed in (R134, R183). -/
def RowOf (c : Cmd) (k : Command) (p : Phase) : Prop :=
  (c = .start ∧ k = (if p = .mtDataAck then .repStart else .start)) ∨
    (c = .transmit ∧ k = (if p = .started ∨ p = .repStarted then .transmitAddr else .transmitData)) ∨
    (c = .recvAck ∧ k = .receiveAck) ∨ (c = .recvNack ∧ k = .receiveNack)

/-- The code a row is checked with is the one of its success phase (R134). -/
theorem expectedCode_of_success {e : Bool} {c : Cmd} {k : Command} {p : Phase} {d : Option Byte} {r : Byte}
    {o : Completion} (hk : RowOf c k p) (h : outcome e c p d .success r = some o) :
    expectedCode k (d.any fun b => b.getLsbD 0) = some (phaseCode Config.idleCode o.phase) := by
  obtain ⟨-, ⟨rfl, hp, rfl⟩ | ⟨rfl, rfl, rfl⟩ | ⟨b, rfl, rfl, hp, rfl⟩ | ⟨b, rfl, rfl, hp, rfl⟩ |
      ⟨rfl, hp, rfl⟩ | ⟨rfl, hp, rfl⟩⟩ | ⟨ha, -⟩ | ⟨⟨ha, -⟩ | ⟨ha, -⟩, -⟩ := outcome_cases h
  case inl.inr.inl => simp_all [RowOf, expectedCode, phaseCode]
  case inl.inr.inr.inl =>
    simp only [RowOf, hp, reduceCtorEq, false_and, or_false, false_or, true_and, if_true] at hk
    cases hb : slaIsRead b <;> simp_all [expectedCode, phaseCode, slaIsRead]
  case inr.inl | inr.inr.inl | inr.inr.inr => cases ha
  all_goals obtain rfl | rfl := hp <;> simp_all [RowOf, expectedCode, phaseCode]

/-- Settles O38: the expected code is the success phase's, which no other answer's phase has. -/
theorem checkSucceedsExactlyOnSuccess : Obligations.CheckSucceedsExactlyOnSuccess := by
  intro s c k a r o hc hq hs hk ho
  have hcode : statusCode (s.complete o).statusByte = phaseCode Config.idleCode o.phase :=
    statusByte_code (s := s.complete o) rfl hq hs
  have hcheck : ∀ code, checkStatus code (s.complete o).statusByte = .success ↔
      phaseCode Config.idleCode o.phase = code := by
    intro code
    rw [checkStatus, hcode]
    split <;> simp_all
  obtain ⟨o', ho'⟩ := Option.isSome_iff_exists.mp (outcome_success_isSome ho)
  refine ⟨_, expectedCode_of_success hk ho', (hcheck _).trans ⟨fun heq => ?_, fun ha => ?_⟩⟩
  · exact (outcome_success_iff ho).mp (mem_successPhases_of_code ((outcome_success_iff ho').mpr rfl) heq)
  · subst ha
    exact Option.some.inj ((expectedCode_of_success hk ho).symm.trans (expectedCode_of_success hk ho'))

/-- Settles O59: what an answer excludes is where the other answers lead. -/
theorem premisesExcludeWhatTheySay : Obligations.PremisesExcludeWhatTheySay := by
  intro s t m c hs hc h
  obtain ⟨a, r, rfl, ⟨hsto, -⟩ | ⟨-, c', o, hc', ho, rfl⟩⟩ := engineStep_cases h
  · exact absurd (hs.symm.trans hsto) Bool.false_ne_true
  · cases hc.symm.trans hc'
    have hsuccess := outcome_success_iff ho
    refine ⟨fun x b hnone hct hp hd hx hmem => ?_, fun hq hmem => ?_, fun x hresp hx => ?_,
      fun x b hct hb hne k hx => ?_⟩
    · have hin : ∀ p ∈ [Phase.mtSlaAck, .mrSlaAck], p ∈ successPhases := by decide
      have ha : a = .success := hsuccess.mp (hin _ hmem)
      exact hnone b r (hc.trans (by rw [hct])) hp hd hx (by rw [ha])
    · have hnot : ∀ p ∈ errorPhases, p ∉ successPhases ∧ p ∉ nackPhases := by decide
      obtain ⟨-, hp⟩ | ⟨-, hp⟩ | ⟨ha, -⟩ := outcome_phase_cases ho
      · exact (hnot _ hmem).1 hp
      · exact (hnot _ hmem).2 hp
      · obtain rfl | rfl := ha <;> cases hq
    · have hmove : responsiveMove (.complete a r) = true := hresp (hx.imp_left fun hct => by rw [hc, hct])
      refine hsuccess.mpr ?_
      cases a with
      | success => rfl
      | nack | lost | busErr => cases hmove
    · obtain hi | hx := hx
      · exact absurd (Option.some.inj (hc.symm.trans hi)) hct
      · exact absurd (Option.some.inj (hb.symm.trans hx)) hne

/-- The HOST's memory is no access's to change (R52). -/
theorem exec_mem {i : Instr} (h : exec i s = .next t) : t.driver.mem = s.driver.mem := by
  obtain ⟨-, v, rfl⟩ | ⟨v, -, rfl⟩ | ⟨v, -, rfl⟩ | ⟨v, -, -, rfl⟩ | ⟨c, ea, -, hp⟩ := exec_next_cases h
  case inr.inr.inr.inr => rw [perform_frame hp]
  all_goals rfl

/-- Settles O44: a step leaves host memory or stores one byte, which keeps the form. -/
theorem everyStepKeepsMemoryCanonical : Obligations.EveryStepKeepsMemoryCanonical := by
  intro s t hs h
  obtain ⟨-, ⟨-, u, hu, rfl⟩ | ⟨s', u, hs', hu, rfl⟩⟩ := step_cases h
  · obtain ⟨_, _, -, ⟨-, rfl⟩ | ⟨-, _, o, -, -, rfl⟩⟩ := engineStep_cases hu
    · rw [stopDone_eq]
      exact hs
    · exact hs
  · have hmem : Memory.wf s'.driver.mem = true := by
      obtain ⟨rfl, -⟩ | ⟨rfl, -⟩ := hs' <;> exact hs
    obtain ⟨d, rfl, hd⟩ | ⟨i, v, hv, d, -, hkept | ⟨a, b, hstored⟩⟩ := hostStep_cases hu
    · change Memory.wf d.mem = true
      rwa [hd]
    · change Memory.wf u.driver.mem = true
      rwa [hkept, exec_mem hv]
    · change Memory.wf u.driver.mem = true
      rw [hstored, exec_mem hv]
      exact memWrite_wf a b hmem

/-- Settles O46: the reset state is one concrete state. -/
theorem resetLeavesTheBlockOff : Obligations.ResetLeavesTheBlockOff := by
  unfold Obligations.ResetLeavesTheBlockOff
  decide

end Sys2Proof.Machine

end

/-! ### The placed access (log entry 4) -/

section

namespace Sys2Proof.Machine

variable {s t : State}

/-! #### No access reads the HOST's operations -/

theorem mapNext_hostWrite (f : State → State) (s : State) (k : Answered) :
    mapNext f (hostWrite s k) = hostWrite s (mapNext f k) := by
  rw [hostWrite, hostWrite, mapNext_unlessMarked]
  split <;> rfl

theorem mapNext_configWrite (f : State → State) (s : State) (k : Answered) :
    mapNext f (configWrite s k) = configWrite s (mapNext f k) := by
  rw [configWrite, configWrite, mapNext_hostWrite]
  split <;> rfl

theorem mapNext_command (f : State → State) (c : Command) (s : State) (k : Answered) :
    mapNext f (command c s k) = command c s (mapNext f k) := by
  rw [command, command, mapNext_hostWrite]
  split <;> rfl

theorem perform_setOps (l : List HostOp) (c : Command) (ea : Bool) (s : State) :
    perform c ea (s.setOps l) = mapNext (State.setOps l) (perform c ea s) := by
  have command : ∀ c k m, m = mapNext (State.setOps l) k →
      Machine.command c (s.setOps l) m = mapNext (State.setOps l) (Machine.command c s k) := by
    rintro c k _ rfl
    exact (mapNext_command _ c s k).symm
  have transmit : ∀ u, withData (s.setOps l) (fun _ => .next (u.setOps l)) =
      mapNext (State.setOps l) (withData s fun _ => .next u) := by
    intro u
    change withData s _ = _
    unfold withData
    cases s.data <;> rfl
  cases c with
  | enable =>
    refine command _ _ _ ?_
    change Host.Outcome.next (if s.phase = .off then _ else _) =
      .next (State.setOps l (if s.phase = .off then _ else _))
    split <;> rfl
  | disable =>
    refine command _ _ _ ?_
    change (if disableAdmitted s then _ else _) = mapNext _ (if disableAdmitted s then _ else _)
    split <;> rfl
  | start =>
    refine command _ _ _ ?_
    change Host.Outcome.next (if s.sto then _ else _) = .next (State.setOps l (if s.sto then _ else _))
    split <;> rfl
  | stop =>
    refine command _ _ _ ?_
    rw [mapNext_next, beginStop_eq, beginStop_eq]
    rfl
  | transmitAddr | transmitData =>
    exact command _ _ _ (transmit ((s.trigger ea false).setInflight (some .transmit)))
  | repStart | receiveAck | receiveNack => exact command _ _ _ rfl

/-- An access reads nothing of the HOST's operations and leaves them. -/
theorem exec_setOps (l : List HostOp) (i : Instr) (s : State) :
    exec i (s.setOps l) = mapNext (State.setOps l) (exec i s) := by
  cases i with
  | rdBaud | rdStatus | rdCtrl =>
    symm
    exact mapNext_unlessMarked _ s _
  | rdData =>
    refine Eq.trans ?_ (mapNext_unlessMarked _ s _).symm
    change unlessMarked s (match s.dataByte with | some b => _ | none => _) = _
    cases s.dataByte <;> rfl
  | wrBaud v | wrStatus v =>
    symm
    exact mapNext_configWrite _ s _
  | wrData v =>
    symm
    exact mapNext_hostWrite _ s _
  | wrCtrl v =>
    refine Eq.trans ?_ (mapNext_hostWrite _ s _).symm
    change hostWrite s _ = _
    cases ctrlDefect v with
    | some d => rfl
    | none =>
      change hostWrite s (match selectCommand v s.phase with | some c => _ | none => _) = _
      cases selectCommand v s.phase with
      | some c => exact congrArg (hostWrite s) (perform_setOps l c _ s)
      | none => rfl
  | enable ea => exact perform_setOps l .enable ea s
  | disable ea => exact perform_setOps l .disable ea s
  | start ea => exact perform_setOps l .start ea s
  | repStart ea => exact perform_setOps l .repStart ea s
  | stop ea => exact perform_setOps l .stop ea s
  | transmitAddr ea => exact perform_setOps l .transmitAddr ea s
  | transmitData ea => exact perform_setOps l .transmitData ea s
  | receiveAck => exact perform_setOps l .receiveAck true s
  | receiveNack => exact perform_setOps l .receiveNack false s

/-- A placed access is the HOST's next operation, on the state it was placed in, and ENGINE does not move
first. -/
theorem step_placeAccess (hm : Unmarked s) (w : AccessWord) :
    step (s.placeAccess w) =
      mapNext (fun t => (t.countAccess (w.getLsbD 10)).nextTick) (exec (decode s.phase w) s) := by
  set placed := s.setOps (.access w :: s.driver.ops) with hplaced
  have hstate : s.placeAccess w = if s.engineReady then placed.setBus (.wait :: s.bus) else placed := rfl
  have hexec : ∀ t, exec (decode s.phase w) s = .next t → t.driver.ops = s.driver.ops := by
    intro t ht
    obtain ⟨-, hops, -⟩ := accessesChangeOnlyWhatTheyWrite s t _ ht
    exact hops
  have hrun : mapNext (fun t => ((t.countAccess (w.getLsbD 10)).setOps s.driver.ops).nextTick)
      (exec (decode s.phase w) placed) =
      mapNext (fun t => (t.countAccess (w.getLsbD 10)).nextTick) (exec (decode s.phase w) s) := by
    rw [hplaced, exec_setOps, mapNext_mapNext]
    cases hx : exec (decode s.phase w) s with
    | next t =>
      simp only [mapNext_next, ← hexec t hx]
      cases w.getLsbD 10 <;> rfl
    | fault r => rfl
    | refused r => rfl
  rw [hstate, ← hrun]
  cases hr : s.engineReady with
  | false =>
    have he : ¬ EngineMoves placed := fun he => absurd (he.1.symm.trans hr) (by simp)
    rw [if_neg Bool.false_ne_true, step_of_access (s := placed) hm rfl he,
      show placed.engineReady = false from hr, if_neg Bool.false_ne_true]
    rfl
  | true =>
    have he : ¬ EngineMoves (placed.setBus (.wait :: s.bus)) := fun he =>
      absurd he.2 (by simp [State.busMove, State.engineStep])
    rw [if_pos rfl, step_of_access (s := placed.setBus (.wait :: s.bus)) hm rfl he,
      show (placed.setBus (.wait :: s.bus)).engineReady = true from hr, if_pos rfl]
    rfl

/-- Settles O2: the placed word is fetched in the state it was placed in, and a wider number places nothing. -/
theorem placedAccessRunsInTheNextStep : Obligations.PlacedAccessRunsInTheNextStep := by
  refine ⟨fun s nbits w hm hw => ?_, fun nbits w hw => ?_, fun s nbits w hw => ⟨?_, ?_⟩⟩
  · have hbit : (BitVec.ofNat 11 w).getLsbD 10 = w.testBit 10 := BitVec.getLsbD_ofNat 11 w 10
    rw [State.withFetchWord, if_pos hw, step_placeAccess hm, hbit]
    cases exec (decode s.phase (BitVec.ofNat 11 w)) s with
    | next t => cases hb : w.testBit 10 <;> rfl
    | fault r => rfl
    | refused r => rfl
  · simp only [decodeTableWord, decodeNat, if_pos hw]
  · rw [State.withFetchWord, if_neg (by omega)]
  · simp only [decodeTableWord, decodeNat, if_neg (show ¬ w < 2 ^ 11 by omega)]

end Sys2Proof.Machine

end
